-- ==== Sys2Proof/Word.lean ====
section
/-! DEFINITION. The words of the KNOBS-CC block (00_scope.md R7, R9): every value is unsigned. -/

namespace Sys2Proof

/-- One byte of a message, a packet or the serial stream (20_memory.md R38). -/
abbrev Byte := BitVec 8

/-- A sample value, u7 (00_scope.md R7, `VAL_BITS`). -/
abbrev Sample := BitVec 7

/-- A physical channel index or a logical offset, u4 (00_scope.md R7, `CH_BITS`). -/
abbrev Chan := BitVec 4

/-- A millisecond time, u32 (00_scope.md R7, `TIME_BITS`). -/
abbrev Time := BitVec 32

/-- A 4-byte USB-MIDI event packet, first byte on the wire first (20_memory.md R40).  Outbound packets and
inbound ones (30_encoding.md R60, R63) have the same four bytes. -/
structure Packet where
  header : Byte
  m0 : Byte
  m1 : Byte
  m2 : Byte
deriving DecidableEq, Repr

/-- The bytes of a packet in wire order (20_memory.md R40). -/
def Packet.bytes (p : Packet) : List Byte := [p.header, p.m0, p.m1, p.m2]

/-- The ten operations of 30_encoding.md R70 by name, without their draws. -/
inductive OpName where
  | sample | serial | push | idle | usbEvent | poll | hostTake | bootDone | bootFail | reset
deriving DecidableEq, Repr, Inhabited

/-- Which of the two USB interrupt lines fired (43_usb_poll.md R109). -/
inductive UsbKind where
  | generic
  | comm
deriving DecidableEq, Repr, Inhabited

end Sys2Proof
end

