-- ==== Sys2Proof/Config.lean ====
section
/-! DEFINITION. The implementation parameters of 00_scope.md R7, and the free values: the OPEN parameters and
the draws of the environment where the model schedules by itself.  A free value has no body, so a claim holds
for every value of it. -/

namespace Sys2Proof.Config

/-- `N_CH`, the number of knob channels. -/
def nCh : Nat := 16

/-- `DEBOUNCE_MS`, the debounce window, as the 33-bit number of 40_scan_debounce.md R80. -/
def debounceMs : BitVec 33 := 50

/-- `CC_BASE`, the controller number of logical offset 0. -/
def ccBase : Nat := 101

/-- `MIDI_CH`, the MIDI channel field of every message. -/
def midiCh : BitVec 4 := 0

/-- `CABLE`, the cable number of every outbound packet (D13; assumption log 12). -/
def cable : BitVec 4 := 0

/-- `USB_RX_MAX`, the most inbound bytes one poll reads. -/
def usbRxMax : Nat := 64

/-- `KNOB_RESET_VALUE`, the reset value of every knob's `value` and `previous` (D10; assumption log 12). -/
def knobResetValue : Sample := 0

/-- `BAUD`, timing only: no rule of the model depends on it (70_reset_and_hazards.md R154). -/
def baud : Nat := 31250

/-- `TICK_HZ`, timing only: no rule of the model depends on it (70_reset_and_hazards.md R154). -/
def tickHz : Nat := 1000

/-- FREE: how much wider than 8 bits a raw conversion is (assumption log 3). -/
opaque adcExtra : Nat

/-- `ADC_BITS`, OPEN, at least 8 (D15; assumption log 3). -/
def adcBits : Nat := 8 + adcExtra

/-- FREE: how many packets more than one the outbound queue holds (assumption log 2). -/
opaque txExtra : Nat

/-- `USB_TX_DEPTH`, OPEN, at least 1 (D5; assumption log 2). -/
def usbTxDepth : Nat := 1 + txExtra

/-- FREE: any permutation of 0..15 (assumption log 1). -/
opaque mapSeed : Equiv.Perm (Fin 16)

/-- The free permutation with the image of 8 exchanged with 0, so that 8 goes to 0.  Every permutation that
sends 8 to 0 arises in this way, from itself (10_state.md R20). -/
def mapPerm : Equiv.Perm (Fin 16) := mapSeed.trans (Equiv.swap (mapSeed 8) 0)

/-- `CHANNEL_MAP`, OPEN: a permutation of 0..15 with entry 8 equal to 0 (D12; assumption log 1). -/
def channelMap : Vector Chan 16 := Vector.ofFn fun c => BitVec.ofNat 4 (mapPerm c).val

/-- FREE: a byte of a `p_msg` that is not 3 bytes long and lacks byte `i` (assumption log 10). -/
opaque absentMsgByte : List Byte → Nat → Byte

/-- FREE: the operation the environment and the two agents choose at a point of the free schedule
(20_memory.md R48; assumption log 4). -/
opaque drawOp : Nat → OpName

/-- FREE: the draw `raw` of SAMPLE (40_scan_debounce.md R76; assumption log 4). -/
opaque drawRaw : Nat → BitVec adcBits

/-- FREE: the draw `now` of SAMPLE, under no law (60_exceptions.md R136; assumption log 4). -/
opaque drawNow : Nat → Time

/-- FREE: the draw `ok` of PUSH (42_sender_cdc.md R100; assumption log 4). -/
opaque drawOk : Nat → Bool

/-- FREE: the line of a USB_EVENT (43_usb_poll.md R109; assumption log 4). -/
opaque drawKind : Nat → UsbKind

/-- FREE: the draw `activity` of POLL (43_usb_poll.md R111; assumption log 4). -/
opaque drawActivity : Nat → Bool

/-- FREE: the bytes from which the draw `rx` of POLL is cut (43_usb_poll.md R114; assumption log 4). -/
opaque drawBytes : Nat → List Byte

/-- FREE: the draw `deliver` of HOST_TAKE (43_usb_poll.md R113; assumption log 4). -/
opaque drawDeliver : Nat → Bool

/-- The draw `rx` of POLL under its law: at most `USB_RX_MAX` bytes, none without activity (D29). -/
def drawRx (t : Nat) : List Byte := if drawActivity t then (drawBytes t).take usbRxMax else []

end Sys2Proof.Config
end

