-- ==== Sys2Proof/Syntax.lean ====
section
/-! DEFINITION. The instructions: one constructor per row of spec/opcode_table.json, and the two written forms
they are decoded from, the bytes on a port (30_encoding.md R56) and the lines of the trace notation (R72). -/

namespace Sys2Proof

/-- The table's fifteen rows.  The first five are the data formats of 30_encoding.md R56, the other ten the
operations of R70, whose operands are their draws. -/
inductive Instr where
  /-- CC_MSG: a Control Change message with controller `c` and value `v` (R57, R87). -/
  | ccMsg (c v : BitVec 7)
  /-- USBMIDI_CC_PKT: the outbound event packet around that message (R60, R98). -/
  | usbMidiCcPkt (c v : BitVec 7)
  /-- USB_IN_SYSEX: an inbound packet of cable `k`, Code Index Number `01ii` (R63, R116). -/
  | usbInSysex (k : BitVec 4) (i : BitVec 2) (a b c : Byte)
  /-- USB_IN_REGULAR_LO: an inbound packet with Code Index Number `00ii` (R63, R116). -/
  | usbInRegularLo (k : BitVec 4) (i : BitVec 2) (a b c : Byte)
  /-- USB_IN_REGULAR_HI: an inbound packet with Code Index Number `1iii` (R63, R116). -/
  | usbInRegularHi (k : BitVec 4) (i : BitVec 3) (a b c : Byte)
  /-- SAMPLE: convert, down-scale and filter channel `scan_ch` (R78). -/
  | sample (raw : BitVec Config.adcBits) (now : Time)
  /-- SERIAL: write the held message to the serial transport (R96). -/
  | serial
  /-- PUSH: hand the framed message to the outbound queue (R100). -/
  | push (ok : Bool)
  /-- IDLE: the low-power wait (R139). -/
  | idle
  /-- USB_EVENT: the peripheral raises one of its two lines (R109). -/
  | usbEvent (kind : UsbKind)
  /-- POLL: the interrupt handler (R110). -/
  | poll (activity : Bool) (rx : List Byte)
  /-- HOST_TAKE: the head packet leaves the outbound queue (R113). -/
  | hostTake (deliver : Bool)
  /-- BOOT_DONE: the USB context exists, interrupts are enabled (R145). -/
  | bootDone
  /-- BOOT_FAIL: an initialization failure (R144). -/
  | bootFail
  /-- RESET (R141). -/
  | reset
deriving DecidableEq, Repr

/-- Whether the row is one of the ten operations of 30_encoding.md R70 (a format is no operation, R56). -/
def isOperation : Instr → Bool
  | .ccMsg _ _ | .usbMidiCcPkt _ _ => false
  | .usbInSysex _ _ _ _ _ | .usbInRegularLo _ _ _ _ _ | .usbInRegularHi _ _ _ _ _ => false
  | .sample _ _ | .serial | .push _ | .idle => true
  | .usbEvent _ | .poll _ _ | .hostTake _ => true
  | .bootDone | .bootFail | .reset => true

/-- The byte ports a data format crosses (20_memory.md R38, 30_encoding.md R56). -/
inductive BytePort where
  /-- `ser_tx`, the serial MIDI wire. -/
  | serTx
  /-- The bulk IN endpoint, from the block to the host. -/
  | usbIn
  /-- The bulk OUT endpoint, from the host to the block (`rx_bytes`). -/
  | usbOut
deriving DecidableEq, Repr

/-- The argument names of the trace notation (30_encoding.md R72). -/
inductive ArgName where
  | s | raw | now | ok | kind | activity | rx | deliver
deriving DecidableEq, Repr

/-- The literals of the trace notation: a number, an interrupt line, a list of bytes written as numbers. -/
inductive Literal where
  | num (n : Nat)
  | line (k : UsbKind)
  | bytes (bs : List Nat)
deriving DecidableEq, Repr

/-- `arg ::= name "=" literal` (30_encoding.md R72). -/
structure TraceArg where
  name : ArgName
  lit : Literal
deriving DecidableEq, Repr

/-- One line of the trace notation without its count, as tokens (30_encoding.md R72; assumption log 15). -/
structure TraceLine where
  op : OpName
  args : List TraceArg
deriving DecidableEq, Repr

/-- What one step of the model fetches: the bytes of a format on its port, or a line that names a port event.
Operations carry no opcode bits (30_encoding.md R69). -/
inductive Fetch where
  | bytes (port : BytePort) (bs : List Byte)
  | line (l : TraceLine)
deriving DecidableEq, Repr

/-- Why something fetched is no instruction. -/
inductive DecodeError where
  /-- `n` bytes on a port whose format has another length. -/
  | wrongLength (port : BytePort) (n : Nat)
  /-- Three bytes that do not match the pattern of CC_MSG (30_encoding.md R57, R64). -/
  | notCcMsg
  /-- Four bytes on the IN endpoint that do not match the pattern of USB_PKT (30_encoding.md R60, R64). -/
  | notUsbPkt
  /-- A line whose arguments are not those its operation takes (30_encoding.md R72). -/
  | badArgs (op : OpName)
  /-- A literal outside the width of its port (30_encoding.md R65). -/
  | outOfRange (op : OpName)
deriving DecidableEq, Repr

end Sys2Proof
end

