-- ==== Sys2Proof/WellFormed.lean ====
section
/-! DEFINITION. Which instructions are well formed: what the bit widths of Syntax.lean do not say already. -/

namespace Sys2Proof

/-- A controller number the block emits: `CC_BASE` to `CC_BASE + 15` (30_encoding.md R57, R64). -/
def emittedController (c : BitVec 7) : Bool := decide (Config.ccBase ≤ c.toNat ∧ c.toNat ≤ Config.ccBase + 15)

/-- What can stand at the `rx_bytes` port in one poll: at most `USB_RX_MAX` bytes, and none when there is no
activity (43_usb_poll.md R110, R114, D29). -/
def presentableRead (activity : Bool) (rx : List Byte) : Bool :=
  decide (rx.length ≤ Config.usbRxMax) && (activity || rx.isEmpty)

/-- The outbound formats carry an emitted controller number, a poll a presentable read; every other operand is
held to its range by its type (30_encoding.md R65). -/
def wellFormed : Instr → Bool
  | .ccMsg c _ => emittedController c
  | .usbMidiCcPkt c _ => emittedController c
  | .usbInSysex _ _ _ _ _ => true
  | .usbInRegularLo _ _ _ _ _ => true
  | .usbInRegularHi _ _ _ _ _ => true
  | .sample _ _ => true
  | .serial => true
  | .push _ => true
  | .idle => true
  | .usbEvent _ => true
  | .poll activity rx => presentableRead activity rx
  | .hostTake _ => true
  | .bootDone => true
  | .bootFail => true
  | .reset => true

end Sys2Proof
end

