-- ==== Sys2Proof/Decode.lean ====
section
/-! DEFINITION. Decoding what one step fetches, total and rejecting by name; the encoder after it; and the
layout of a word of spec/opcode_table.json on the port its format crosses. -/

namespace Sys2Proof

/-- The status byte of the block's messages, `1011` and the MIDI channel (30_encoding.md R57, R58). -/
def ccStatus : Byte := 0b1011#4 ++ Config.midiCh

/-- The header of the block's packets, `CABLE` and Code Index Number `1011` (30_encoding.md R60). -/
def usbHeader : Byte := Config.cable ++ 0b1011#4

/-- A 7-bit value as a data byte, bit 7 zero (30_encoding.md R57). -/
def dataByte (v : BitVec 7) : Byte := 0#1 ++ v

/-- Bits 6:0 of a data byte. -/
def dataField (b : Byte) : BitVec 7 := b.extractLsb' 0 7

/-- Three bytes against the pattern `10110000 0ccccccc 0vvvvvvv` of CC_MSG: the controller and the value
(30_encoding.md R57). -/
def ccFields (b0 b1 b2 : Byte) : Option (BitVec 7 × BitVec 7) :=
  if b0 = ccStatus ∧ b1.msb = false ∧ b2.msb = false then some (dataField b1, dataField b2) else none

/-- The Code Index Number of a packet, bits 3:0 of its header (30_encoding.md R60, R63). -/
def cinOf (p : Packet) : BitVec 4 := p.header.extractLsb' 0 4

/-- The cable number of a packet, bits 7:4 of its header (30_encoding.md R60). -/
def cableOf (p : Packet) : BitVec 4 := p.header.extractLsb' 4 4

/-- An inbound packet read as its row of the table, by bits 3:2 of its header, the upper half of the Code Index
Number (30_encoding.md R63): every packet is one of the three. -/
def decodeInbound (p : Packet) : Instr :=
  if p.header.getLsbD 3 then
    .usbInRegularHi (cableOf p) (p.header.extractLsb' 0 3) p.m0 p.m1 p.m2
  else if p.header.getLsbD 2 then
    .usbInSysex (cableOf p) (p.header.extractLsb' 0 2) p.m0 p.m1 p.m2
  else
    .usbInRegularLo (cableOf p) (p.header.extractLsb' 0 2) p.m0 p.m1 p.m2

/-- The bytes on a port as the format that crosses it (30_encoding.md R56). -/
def decodeBytes (port : BytePort) (bs : List Byte) : Except DecodeError Instr :=
  match port, bs with
  | .serTx, [b0, b1, b2] =>
    match ccFields b0 b1 b2 with
    | some (c, v) => .ok (.ccMsg c v)
    | none => .error .notCcMsg
  | .usbIn, [h, b0, b1, b2] =>
    if h = usbHeader then
      match ccFields b0 b1 b2 with
      | some (c, v) => .ok (.usbMidiCcPkt c v)
      | none => .error .notUsbPkt
    else .error .notUsbPkt
  | .usbOut, [h, b0, b1, b2] => .ok (decodeInbound ⟨h, b0, b1, b2⟩)
  | port, bs => .error (.wrongLength port bs.length)

/-- A raw conversion whose down-scale is the sample `v`, its low-order bits zero: what `SAMPLE s=v` stands for
(30_encoding.md R72; assumption log 15). -/
def rawOfSample (v : Sample) : BitVec Config.adcBits := v.setWidth Config.adcBits <<< (Config.adcBits - 7)

/-- A trace literal that must be a bit. -/
def bitOf (n : Nat) : Option Bool :=
  match n with
  | 0 => some false
  | 1 => some true
  | _ => none

/-- A trace literal `[<byte>, ...]`, if every number is a byte. -/
def bytesOf (bs : List Nat) : Option (List Byte) :=
  if bs.all (· < 256) then some (bs.map (BitVec.ofNat 8)) else none

/-- An instruction whose literals were in range, or the error of its operation. -/
def inRange (op : OpName) : Option Instr → Except DecodeError Instr
  | some i => .ok i
  | none => .error (.outOfRange op)

/-- `SAMPLE` with the down-scaled sample given directly. -/
def sampleOfScaled (v now : Nat) : Option Instr :=
  if v < 128 ∧ now < 2 ^ 32 then some (.sample (rawOfSample (BitVec.ofNat 7 v)) (BitVec.ofNat 32 now)) else none

/-- `SAMPLE` with the raw conversion. -/
def sampleOfRaw (raw now : Nat) : Option Instr :=
  if raw < 2 ^ Config.adcBits ∧ now < 2 ^ 32 then
    some (.sample (BitVec.ofNat Config.adcBits raw) (BitVec.ofNat 32 now))
  else none

/-- `POLL` with its two draws, if they can stand at their ports. -/
def pollOf (activity : Nat) (rx : List Nat) : Option Instr :=
  match bitOf activity, bytesOf rx with
  | some a, some bs => if presentableRead a bs then some (.poll a bs) else none
  | _, _ => none

/-- A line of the trace notation as the operation it names (30_encoding.md R72). -/
def decodeLine (l : TraceLine) : Except DecodeError Instr :=
  match l.op, l.args with
  | .sample, [⟨.s, .num v⟩, ⟨.now, .num t⟩] => inRange .sample (sampleOfScaled v t)
  | .sample, [⟨.raw, .num v⟩, ⟨.now, .num t⟩] => inRange .sample (sampleOfRaw v t)
  | .serial, [] => .ok .serial
  | .push, [⟨.ok, .num b⟩] => inRange .push ((bitOf b).map .push)
  | .idle, [] => .ok .idle
  | .usbEvent, [⟨.kind, .line k⟩] => .ok (.usbEvent k)
  | .poll, [⟨.activity, .num a⟩, ⟨.rx, .bytes bs⟩] => inRange .poll (pollOf a bs)
  | .hostTake, [⟨.deliver, .num b⟩] => inRange .hostTake ((bitOf b).map .hostTake)
  | .bootDone, [] => .ok .bootDone
  | .bootFail, [] => .ok .bootFail
  | .reset, [] => .ok .reset
  | op, _ => .error (.badArgs op)

/-- The instruction one step fetches, or the reason there is none. -/
def decode : Fetch → Except DecodeError Instr
  | .bytes port bs => decodeBytes port bs
  | .line l => decodeLine l

/-- A bit as a trace literal. -/
def bitLit (b : Bool) : Literal := .num b.toNat

/-- The written form of an instruction: the bytes of a format on its port (30_encoding.md R57, R60, R63), the
trace line of an operation (R72). -/
def encode : Instr → Fetch
  | .ccMsg c v => .bytes .serTx [ccStatus, dataByte c, dataByte v]
  | .usbMidiCcPkt c v => .bytes .usbIn [usbHeader, ccStatus, dataByte c, dataByte v]
  | .usbInSysex k i a b c => .bytes .usbOut [k ++ (0b01#2 ++ i), a, b, c]
  | .usbInRegularLo k i a b c => .bytes .usbOut [k ++ (0b00#2 ++ i), a, b, c]
  | .usbInRegularHi k i a b c => .bytes .usbOut [k ++ (1#1 ++ i), a, b, c]
  | .sample raw now => .line ⟨.sample, [⟨.raw, .num raw.toNat⟩, ⟨.now, .num now.toNat⟩]⟩
  | .serial => .line ⟨.serial, []⟩
  | .push ok => .line ⟨.push, [⟨.ok, bitLit ok⟩]⟩
  | .idle => .line ⟨.idle, []⟩
  | .usbEvent kind => .line ⟨.usbEvent, [⟨.kind, .line kind⟩]⟩
  | .poll activity rx => .line ⟨.poll, [⟨.activity, bitLit activity⟩, ⟨.rx, .bytes (rx.map BitVec.toNat)⟩]⟩
  | .hostTake deliver => .line ⟨.hostTake, [⟨.deliver, bitLit deliver⟩]⟩
  | .bootDone => .line ⟨.bootDone, []⟩
  | .bootFail => .line ⟨.bootFail, []⟩
  | .reset => .line ⟨.reset, []⟩

/-- Byte `n` of a table word, counted from its least significant byte. -/
def wordByte (w n : Nat) : Byte := BitVec.ofNat 8 (w / 2 ^ (8 * n))

/-- Whether a 32-bit table word matches the row USBMIDI_CC_PKT: match `0x0BB00000`, mask `0xFFFF8080`. -/
def isUsbPktWord (w : Nat) : Bool := BitVec.ofNat 32 w &&& 0xFFFF8080#32 == 0x0BB00000#32

/-- A word of the table laid out on the port its format crosses, first byte from the most significant bits
(30_encoding.md R57, R60).  Of the 32-bit words, those that match USBMIDI_CC_PKT stand on the IN endpoint and
all others on the OUT endpoint (assumption log 8).  No other width is a format's. -/
def tableFetch (nbits w : Nat) : Fetch :=
  if nbits = 24 then .bytes .serTx [wordByte w 2, wordByte w 1, wordByte w 0]
  else
    let bs := if nbits = 32 then [wordByte w 3, wordByte w 2, wordByte w 1, wordByte w 0] else []
    .bytes (if isUsbPktWord w then .usbIn else .usbOut) bs

/-- The instruction decoded from a table word of `nbits` bits, if there is one. -/
def decodeTableWord (nbits w : Nat) : Option Instr :=
  match decode (tableFetch nbits w) with
  | .ok i => some i
  | .error _ => none

end Sys2Proof
end

