-- ==== Sys2Proof/Machine/State.lean ====
section
/-! DEFINITION. The state of the KNOBS-CC block (10_state.md), the reasons a step stops, and the state after
power-on. -/

namespace Sys2Proof.Machine

/-- One entry of the knob file (10_state.md R16). -/
structure Knob where
  value : Sample
  previous : Sample
  lastChangeMs : Time
deriving DecidableEq, Repr

/-- `value` as the 8 bits that hold it, bit 7 zero (10_state.md R16). -/
def Knob.valueByte (k : Knob) : Byte := 0#1 ++ k.value

/-- `previous` as the 8 bits that hold it, bit 7 zero (10_state.md R16). -/
def Knob.previousByte (k : Knob) : Byte := 0#1 ++ k.previous

/-- `p_phase`, the producer's position within one channel (10_state.md R22). -/
inductive Phase where
  | sample
  | serial
  | push
deriving DecidableEq, Repr

/-- `mode`, the life-cycle state (10_state.md R28). -/
inductive Mode where
  | boot
  | run
  | halt
deriving DecidableEq, Repr

/-- The codes of the two fatal failures (60_exceptions.md R122). -/
inductive FaultCode where
  | pktSize
  | initFail
deriving DecidableEq, Repr

/-- The number of a fault code (60_exceptions.md R122). -/
def FaultCode.number : FaultCode → Nat
  | .pktSize => 1
  | .initFail => 2

/-- The state of the block and, last, three fields of the model's own. -/
structure State where
  /-- `knob[0..15]` (R16). -/
  knobs : Vector Knob 16
  /-- `CHANNEL_MAP[0..15]`, read-only (R20). -/
  chanMap : Vector Chan 16
  /-- `scan_ch` (R21). -/
  scanCh : Chan
  /-- `p_phase` (R22). -/
  pPhase : Phase
  /-- `p_msg`, 3 bytes (R23); a list, so that the size check of R99 has a subject (assumption log 10). -/
  pMsg : List Byte
  /-- `txq`, oldest packet first (R24). -/
  txq : List Packet
  /-- `usb_pend` (R25). -/
  usbPend : Bool
  /-- `irq_en` (R26). -/
  irqEn : Bool
  /-- `mode` (R28). -/
  mode : Mode
  /-- `fault`, the code of the failure that caused `HALT` (R28). -/
  fault : Option FaultCode
  /-- `ser_out`, oldest byte first (R29). -/
  serOut : List Byte
  /-- `host_in`, oldest packet first (R29). -/
  hostIn : List Packet
  /-- The level of the output port `mux_sel` (20_memory.md R38; assumption log 11). -/
  muxSel : Chan
  /-- The model's own: port events laid out in advance, the next one first (assumption log 5). -/
  script : List Fetch
  /-- The model's own: how often the free schedule was consulted (assumption log 4). -/
  tick : Nat
  /-- The model's own: the bytes the last output-format row rendered (assumption log 7). -/
  fmtOut : Option (List Byte)
deriving DecidableEq, Repr

/-- The output port `mux_dummy`, held 0 (20_memory.md R38, 40_scan_debounce.md R76). -/
def State.muxDummy (_ : State) : BitVec 1 := 0

/-- Where the model stops with a fault.  The block's own faults are no stop: `raise Fault(code)` is a next state
in mode `HALT` (60_exceptions.md R124). -/
inductive Fault where
  /-- Raised by the meaning of an operation in a state where 30_encoding.md R70 does not enable it: "an
  operation not enabled has no step".  Safe: the machine takes no such step (assumption log 6). -/
  | notEnabled (op : OpName)
deriving DecidableEq, Repr

/-- Where the model has no meaning to give. -/
inductive Refusal where
  /-- Raised by exec for an instruction without a meaning; no arm answers with it.  Safe. -/
  | notModelled (mnemonic : String)
  /-- Raised by step when what it fetches is no instruction (30_encoding.md R56, R64, R65, R72).  Safe. -/
  | undecodable (e : DecodeError)
  /-- Raised by POLL for a read that cannot stand at its port: more than 64 bytes, or bytes without activity
  (30_encoding.md R65, 43_usb_poll.md R110, I15).  Safe (assumption log 16). -/
  | unrepresentable (op : OpName)
deriving DecidableEq, Repr

/-- A knob at its reset value (10_state.md R34). -/
def Knob.reset : Knob := ⟨Config.knobResetValue, Config.knobResetValue, 0⟩

/-- The state at power-on: the values of 10_state.md R34, the logs empty, and the values of the assumption log
for `p_msg` (9), `mux_sel` (11) and the model's own fields (4, 5, 7). -/
def State.reset : State where
  knobs := Vector.replicate 16 Knob.reset
  chanMap := Config.channelMap
  scanCh := 0
  pPhase := .sample
  pMsg := [0, 0, 0]
  txq := []
  usbPend := false
  irqEn := false
  mode := .boot
  fault := none
  serOut := []
  hostIn := []
  muxSel := 0
  script := []
  tick := 0
  fmtOut := none

end Sys2Proof.Machine
end

