-- ==== Sys2Proof/Machine/Enabled.lean ====
section
/-! DEFINITION. When each operation is enabled (30_encoding.md R70). -/

namespace Sys2Proof.Machine

/-- `mode = RUN`, `p_phase = SAMPLE`. -/
def sampleEnabled (s : State) : Bool := s.mode == .run && s.pPhase == .sample

/-- `mode = RUN`, `p_phase = SERIAL`. -/
def serialEnabled (s : State) : Bool := s.mode == .run && s.pPhase == .serial

/-- `mode = RUN`, `p_phase = PUSH`. -/
def pushEnabled (s : State) : Bool := s.mode == .run && s.pPhase == .push

/-- `mode = RUN`. -/
def idleEnabled (s : State) : Bool := s.mode == .run

/-- `mode` is `BOOT` or `RUN`. -/
def usbEventEnabled (s : State) : Bool := s.mode == .boot || s.mode == .run

/-- `mode = RUN`, `irq_en = 1`, `usb_pend = 1`. -/
def pollEnabled (s : State) : Bool := s.mode == .run && s.irqEn && s.usbPend

/-- `mode = RUN`, `txq` not empty. -/
def hostTakeEnabled (s : State) : Bool := s.mode == .run && !s.txq.isEmpty

/-- `mode = BOOT`. -/
def bootEnabled (s : State) : Bool := s.mode == .boot

/-- Whether an operation is enabled (30_encoding.md R70).  A format row is no operation, so it is never one of
the operations the block may take. -/
def enabled (i : Instr) (s : State) : Bool :=
  match i with
  | .ccMsg _ _ => false
  | .usbMidiCcPkt _ _ => false
  | .usbInSysex _ _ _ _ _ => false
  | .usbInRegularLo _ _ _ _ _ => false
  | .usbInRegularHi _ _ _ _ _ => false
  | .sample _ _ => sampleEnabled s
  | .serial => serialEnabled s
  | .push _ => pushEnabled s
  | .idle => idleEnabled s
  | .usbEvent _ => usbEventEnabled s
  | .poll _ _ => pollEnabled s
  | .hostTake _ => hostTakeEnabled s
  | .bootDone => bootEnabled s
  | .bootFail => bootEnabled s
  | .reset => true

/-- The outcome of a meaning that has one: the step's result where the operation is enabled, no step where it is
not (30_encoding.md R70; assumption log 6). -/
def whenEnabled (op : OpName) (on : Bool) (t : State) : Host.Outcome State Fault Refusal :=
  if on then .next t else .fault (.notEnabled op)

end Sys2Proof.Machine
end

