-- ==== Sys2Proof/Machine/Flags.lean ====
section
/-! DEFINITION. The block has no flags (10_state.md R30).  The two bits that the debounce rule decides within
one SAMPLE step, and that live no longer than it (R32), are computed here. -/

namespace Sys2Proof.Machine

/-- The answer of the debounce rule: `emit`, a message is produced; `upd`, the knob is updated
(40_scan_debounce.md R79). -/
structure Decision where
  emit : Bool
  upd : Bool
deriving DecidableEq, Repr

/-- The timestamp gate `zext_33(now) > zext_33(T) + DEBOUNCE_MS`: exact, unsigned, strict
(40_scan_debounce.md R80, R81). -/
def gateExpired (T now : Time) : Bool :=
  decide (T.setWidth 33 + Config.debounceMs < now.setWidth 33)

/-- `should_ignore = (s == P) && (now > T + 50)` (40_scan_debounce.md R79). -/
def shouldIgnore (P : Sample) (T : Time) (s : Sample) (now : Time) : Bool :=
  s == P && gateExpired T now

/-- `debounce(V, P, T, s, now)` (40_scan_debounce.md R79). -/
def debounce (V P : Sample) (T : Time) (s : Sample) (now : Time) : Decision :=
  if s = V then ⟨false, false⟩ else ⟨!shouldIgnore P T s now, true⟩

end Sys2Proof.Machine
end

