-- ==== Sys2Proof/Machine/Operands.lean ====
section
/-! DEFINITION. The pure functions of 30_encoding.md R71 on their operands: down-scale, encode, frame; and the
parse and classification of inbound bytes. -/

namespace Sys2Proof.Machine

/-- `downscale(raw) = raw >> (ADC_BITS - 7)`, for a conversion of `n` bits (40_scan_debounce.md R74). -/
def downscaleFrom {n : Nat} (raw : BitVec n) : Sample := (raw >>> (n - 7)).setWidth 7

/-- `downscale` at the block's width `ADC_BITS` (40_scan_debounce.md R74). -/
def downscale (raw : BitVec Config.adcBits) : Sample := downscaleFrom raw

/-- `CHANNEL_MAP[c]` (10_state.md R20). -/
def mapEntry (map : Vector Chan 16) (c : Chan) : Chan := map[c.toNat]

/-- The controller number of physical channel `c`, `CC_BASE + CHANNEL_MAP[c]`, an exact sum that fits 7 bits
(30_encoding.md R58, 41_encoder.md R87). -/
def controllerOf (map : Vector Chan 16) (c : Chan) : BitVec 7 :=
  BitVec.ofNat 7 (Config.ccBase + (mapEntry map c).toNat)

/-- The three bytes of CC_MSG with controller `ctl` and value `v` (30_encoding.md R57, R58). -/
def ccMessage (ctl v : BitVec 7) : List Byte := [ccStatus, dataByte ctl, dataByte v]

/-- `encode(c, v)`, the MIDI encoder (41_encoder.md R87). -/
def encodeCc (map : Vector Chan 16) (c : Chan) (v : Sample) : List Byte := ccMessage (controllerOf map c) v

/-- `frame(m)`: the event packet around a message of 3 bytes, `PKT_SIZE` for any other length
(42_sender_cdc.md R98, R99). -/
def frame (m : List Byte) : Except FaultCode Packet :=
  match m with
  | [m0, m1, m2] => .ok ⟨usbHeader, m0, m1, m2⟩
  | _ => .error .pktSize

/-- All sixteen channels in ascending order (40_scan_debounce.md R73). -/
def allChannels : List Chan := (List.range 16).map (BitVec.ofNat 4)

/-- The physical channel whose controller number is `ctl`, if there is one: the controller number determines
the channel (30_encoding.md R61). -/
def channelOf (map : Vector Chan 16) (ctl : BitVec 7) : Option Chan :=
  allChannels.find? fun c => controllerOf map c == ctl

/-- What the encoder renders for a CC_MSG with controller `ctl` and value `v`: nothing when no channel has that
controller, an encoding the block never emits (30_encoding.md R61, R64). -/
def renderCc (map : Vector Chan 16) (ctl v : BitVec 7) : Option (List Byte) :=
  (channelOf map ctl).map fun c => encodeCc map c v

/-- `parse(bytes)`: whole packets of 4 bytes in order, the last `L mod 4` bytes discarded
(43_usb_poll.md R115). -/
def parse : List Byte → List Packet
  | h :: a :: b :: c :: rest => ⟨h, a, b, c⟩ :: parse rest
  | _ => []

/-- The two branches an inbound packet is classified into (30_encoding.md R63). -/
inductive InboundClass where
  | sysex
  | regular
deriving DecidableEq, Repr

/-- `SYSEX` for the Code Index Numbers 4 to 7, `REGULAR` for every other (30_encoding.md R63). -/
def classOf (p : Packet) : InboundClass :=
  if (cinOf p).extractLsb' 2 2 = 0b01#2 then .sysex else .regular

end Sys2Proof.Machine
end

