-- ==== Sys2Proof/Machine/Ops.lean ====
section
/-! DEFINITION. The named operations on the state that the meanings are made of (00_scope.md R10), raising a
fault and entering and leaving the interrupt context among them. -/

namespace Sys2Proof.Machine

/-! The knob file and the producer's registers. -/

/-- `knob[c]` (10_state.md R16). -/
def State.knob (s : State) (c : Chan) : Knob := s.knobs[c.toNat]

/-- `knob[c] <- k` (10_state.md R16). -/
def State.setKnob (s : State) (c : Chan) (k : Knob) : State := { s with knobs := s.knobs.set c.toNat k }

/-- `MuxSelect(c)` (40_scan_debounce.md R76). -/
def State.muxSelect (s : State) (c : Chan) : State := { s with muxSel := c }

/-- `p_msg <- m` (10_state.md R23). -/
def State.setMsg (s : State) (m : List Byte) : State := { s with pMsg := m }

/-- `p_phase <- p` (10_state.md R22). -/
def State.setPhase (s : State) (p : Phase) : State := { s with pPhase := p }

/-- The producer finishes a channel: `scan_ch <- (scan_ch + 1) mod 16`, `p_phase <- SAMPLE`
(40_scan_debounce.md R77). -/
def State.finishChannel (s : State) : State := { s with scanCh := s.scanCh + 1, pPhase := .sample }

/-! The outputs and the queue. -/

/-- `SerialEmit(b)` (00_scope.md R10). -/
def State.serialEmit (s : State) (b : Byte) : State := { s with serOut := s.serOut ++ [b] }

/-- `FifoPush(p)` (00_scope.md R10). -/
def State.fifoPush (s : State) (p : Packet) : State := { s with txq := s.txq ++ [p] }

/-- The state after `FifoPop()`; the packet popped is the head of `txq` (00_scope.md R10). -/
def State.fifoDrop (s : State) : State := { s with txq := s.txq.tail }

/-- `HostDeliver(p)` (00_scope.md R10). -/
def State.hostDeliver (s : State) (p : Packet) : State := { s with hostIn := s.hostIn ++ [p] }

/-! Interrupts, mode and faults. -/

/-- `usb_pend <- b` (10_state.md R25). -/
def State.setPend (s : State) (b : Bool) : State := { s with usbPend := b }

/-- `irq_en <- 1` (60_exceptions.md R128). -/
def State.enableIrq (s : State) : State := { s with irqEn := true }

/-- `mode <- m` (10_state.md R28). -/
def State.setMode (s : State) (m : Mode) : State := { s with mode := m }

/-- The model's own record of a rendered format (assumption log 7). -/
def State.setFmtOut (s : State) (r : Option (List Byte)) : State := { s with fmtOut := r }

/-- `raise Fault(code)`: `fault <- code`, `mode <- HALT`, nothing else; sticky until RESET
(60_exceptions.md R124). -/
def raiseFault (code : FaultCode) (s : State) : State := { s with fault := some code, mode := .halt }

/-- RESET: every piece of state of 10_state.md R34 takes its reset value; the logs, `p_msg`, the channel map,
the multiplexer's level and the model's own fields stay (70_reset_and_hazards.md R141; assumption log 14).  It
is the only return from `HALT`. -/
def resetBlock (s : State) : State :=
  { s with
    knobs := Vector.replicate 16 Knob.reset
    scanCh := 0
    pPhase := .sample
    txq := []
    usbPend := false
    irqEn := false
    mode := .boot
    fault := none }

/-- Entry into the interrupt context: `usb_pend` is cleared, nothing is saved (60_exceptions.md R132). -/
def enterPoll (s : State) : State := s.setPend false

/-- Return from the interrupt context: the producer resumes as it was, nothing re-enables the interrupt
(60_exceptions.md R133). -/
def leavePoll (s : State) : State := s

/-! The steps' bodies. -/

/-- SERIAL's byte `i` of `p_msg`; a free value where an ill-formed `p_msg` has no such byte
(42_sender_cdc.md R96; assumption log 10). -/
def msgByte (m : List Byte) (i : Nat) : Byte := (m[i]?).getD (Config.absentMsgByte m i)

/-- The three serial writes of a message, status byte first (42_sender_cdc.md R96). -/
def serialMessage (m : List Byte) (s : State) : State :=
  ((s.serialEmit (msgByte m 0)).serialEmit (msgByte m 1)).serialEmit (msgByte m 2)

/-- The exclusive part of PUSH: the full test of a queue of `depth` packets and the append together, a drop
otherwise (42_sender_cdc.md R100, R101). -/
def pushOrDrop (depth : Nat) (ok : Bool) (pkt : Packet) (s : State) : State :=
  if s.txq.length < depth && ok then s.fifoPush pkt else s

/-- PUSH at a queue of `depth` packets (42_sender_cdc.md R100): a payload that cannot be framed raises
`PKT_SIZE` and does not advance the channel (60_exceptions.md R123). -/
def pushStep (depth : Nat) (ok : Bool) (s : State) : State :=
  match frame s.pMsg with
  | .ok pkt => (pushOrDrop depth ok pkt s).finishChannel
  | .error code => raiseFault code s

/-- The knob update of a transition (40_scan_debounce.md R82). -/
def recordTransition (c : Chan) (v : Sample) (now : Time) (s : State) : State :=
  s.setKnob c ⟨v, (s.knob c).value, now⟩

/-- SAMPLE once the conversion of channel `scan_ch` is down-scaled to `v` (40_scan_debounce.md R78). -/
def sampleStep (v : Sample) (now : Time) (s : State) : State :=
  let c := s.scanCh
  let k := s.knob c
  let d := debounce k.value k.previous k.lastChangeMs v now
  let s1 := s.muxSelect c
  let s2 := if d.upd then recordTransition c v now s1 else s1
  if d.emit then (s2.setMsg (encodeCc s.chanMap c v)).setPhase .serial else s2.finishChannel

/-- One parsed inbound packet: branch on its class, both branches no-ops (43_usb_poll.md R116). -/
def discardInbound (p : Packet) (s : State) : State :=
  match classOf p with
  | .sysex => s
  | .regular => s

/-- The body of POLL between entry and return: with activity one read, parsed, each packet discarded
(43_usb_poll.md R110, R114 to R116). -/
def servicePoll (activity : Bool) (rx : List Byte) (s : State) : State :=
  if activity then (parse rx).foldl (fun t p => discardInbound p t) s else s

/-- HOST_TAKE of the head packet `p` (43_usb_poll.md R113). -/
def takeStep (deliver : Bool) (p : Packet) (s : State) : State :=
  if deliver then s.fifoDrop.hostDeliver p else s.fifoDrop

end Sys2Proof.Machine
end

