-- ==== Sys2Proof/Machine/Boot.lean ====
section
/-! DEFINITION. The meanings of BOOT_DONE, BOOT_FAIL and RESET. -/

namespace Sys2Proof.Machine

/-- BOOT_DONE: the USB context is created and then interrupts are enabled, in one step
(70_reset_and_hazards.md R143, R145). -/
def execBootDone (s : State) : Host.Outcome State Fault Refusal :=
  whenEnabled .bootDone (bootEnabled s) (s.enableIrq.setMode .run)

/-- BOOT_FAIL: `raise Fault(INIT_FAIL)` (70_reset_and_hazards.md R144). -/
def execBootFail (s : State) : Host.Outcome State Fault Refusal :=
  whenEnabled .bootFail (bootEnabled s) (raiseFault .initFail s)

/-- RESET, enabled in every mode (70_reset_and_hazards.md R141). -/
def execReset (s : State) : Host.Outcome State Fault Refusal :=
  .next (resetBlock s)

end Sys2Proof.Machine
end

