-- ==== Sys2Proof/Machine/Consumer.lean ====
section
/-! DEFINITION. The meanings of the USB side's operations: USB_EVENT, POLL, HOST_TAKE. -/

namespace Sys2Proof.Machine

/-- USB_EVENT: `usb_pend <- 1` for either line (43_usb_poll.md R109). -/
def execUsbEvent (kind : UsbKind) (s : State) : Host.Outcome State Fault Refusal :=
  match kind with
  | .generic => whenEnabled .usbEvent (usbEventEnabled s) (s.setPend true)
  | .comm => whenEnabled .usbEvent (usbEventEnabled s) (s.setPend true)

/-- POLL: entry, one service of the peripheral with at most one read, return (43_usb_poll.md R110).  A read that
cannot stand at the port is refused (30_encoding.md R65, D29; assumption log 16). -/
def execPoll (activity : Bool) (rx : List Byte) (s : State) : Host.Outcome State Fault Refusal :=
  if presentableRead activity rx then
    whenEnabled .poll (pollEnabled s) (leavePoll (servicePoll activity rx (enterPoll s)))
  else .refused (.unrepresentable .poll)

/-- HOST_TAKE: the head packet leaves the queue and is delivered or lost (43_usb_poll.md R113). -/
def execHostTake (deliver : Bool) (s : State) : Host.Outcome State Fault Refusal :=
  match s.txq with
  | [] => .fault (.notEnabled .hostTake)
  | p :: _ => whenEnabled .hostTake (hostTakeEnabled s) (takeStep deliver p s)

end Sys2Proof.Machine
end

