-- ==== Sys2Proof/Machine/Formats.lean ====
section
/-! DEFINITION. The meanings of the five format rows.  They are no operations (30_encoding.md R56, R70): the
outbound ones run the pure functions of 41_encoder.md R87 and 42_sender_cdc.md R98, which write no state of the
block, and the inbound ones the parse-and-discard of 43_usb_poll.md R116 (assumption log 7). -/

namespace Sys2Proof.Machine

/-- CC_MSG: the encoder renders the message of controller `c` and value `v` (41_encoder.md R87). -/
def execCcMsg (c v : BitVec 7) (s : State) : Host.Outcome State Fault Refusal :=
  .next (s.setFmtOut (renderCc s.chanMap c v))

/-- The event packet around what the encoder renders; `frame` has no failure on a rendered message
(42_sender_cdc.md R98, R99). -/
def renderPkt (map : Vector Chan 16) (c v : BitVec 7) : Option (List Byte) :=
  (renderCc map c v).bind fun m => (frame m).toOption.map Packet.bytes

/-- USBMIDI_CC_PKT: the framed message of controller `c` and value `v` (42_sender_cdc.md R98). -/
def execUsbMidiCcPkt (c v : BitVec 7) (s : State) : Host.Outcome State Fault Refusal :=
  .next (s.setFmtOut (renderPkt s.chanMap c v))

/-- USB_IN_SYSEX: a parsed packet of class `SYSEX`, discarded (43_usb_poll.md R116). -/
def execUsbInSysex (k : BitVec 4) (i : BitVec 2) (a b c : Byte) (s : State) : Host.Outcome State Fault Refusal :=
  .next (discardInbound ⟨k ++ (0b01#2 ++ i), a, b, c⟩ s)

/-- USB_IN_REGULAR_LO: a parsed packet of class `REGULAR`, Code Index Number 0 to 3, discarded
(43_usb_poll.md R116). -/
def execUsbInRegularLo (k : BitVec 4) (i : BitVec 2) (a b c : Byte) (s : State) :
    Host.Outcome State Fault Refusal :=
  .next (discardInbound ⟨k ++ (0b00#2 ++ i), a, b, c⟩ s)

/-- USB_IN_REGULAR_HI: a parsed packet of class `REGULAR`, Code Index Number 8 to 15, discarded
(43_usb_poll.md R116). -/
def execUsbInRegularHi (k : BitVec 4) (i : BitVec 3) (a b c : Byte) (s : State) :
    Host.Outcome State Fault Refusal :=
  .next (discardInbound ⟨k ++ (1#1 ++ i), a, b, c⟩ s)

end Sys2Proof.Machine
end

