-- ==== Sys2Proof/Machine/Producer.lean ====
section
/-! DEFINITION. The meanings of the producer's operations: SAMPLE, SERIAL, PUSH, IDLE. -/

namespace Sys2Proof.Machine

/-- SAMPLE (40_scan_debounce.md R78). -/
def execSample (raw : BitVec Config.adcBits) (now : Time) (s : State) : Host.Outcome State Fault Refusal :=
  whenEnabled .sample (sampleEnabled s) (sampleStep (downscale raw) now s)

/-- SERIAL: the three bytes of `p_msg`, then phase PUSH (42_sender_cdc.md R96). -/
def execSerial (s : State) : Host.Outcome State Fault Refusal :=
  whenEnabled .serial (serialEnabled s) ((serialMessage s.pMsg s).setPhase .push)

/-- PUSH at the block's queue of `USB_TX_DEPTH` packets (42_sender_cdc.md R100). -/
def execPush (ok : Bool) (s : State) : Host.Outcome State Fault Refusal :=
  whenEnabled .push (pushEnabled s) (pushStep Config.usbTxDepth ok s)

/-- IDLE: no state changes (60_exceptions.md R139). -/
def execIdle (s : State) : Host.Outcome State Fault Refusal :=
  whenEnabled .idle (idleEnabled s) s

end Sys2Proof.Machine
end

