-- ==== Sys2Proof/Machine/Dispatch.lean ====
section
/-! DEFINITION. The meaning of every row of spec/opcode_table.json. -/

namespace Sys2Proof.Machine

def exec (i : Instr) (s : State) : Host.Outcome State Fault Refusal :=
  match i with
  | .ccMsg c v => Sys2Proof.Machine.execCcMsg c v s
  | .usbMidiCcPkt c v => Sys2Proof.Machine.execUsbMidiCcPkt c v s
  | .usbInSysex k i2 a b c => Sys2Proof.Machine.execUsbInSysex k i2 a b c s
  | .usbInRegularLo k i2 a b c => Sys2Proof.Machine.execUsbInRegularLo k i2 a b c s
  | .usbInRegularHi k i3 a b c => Sys2Proof.Machine.execUsbInRegularHi k i3 a b c s
  | .sample raw now => Sys2Proof.Machine.execSample raw now s
  | .serial => Sys2Proof.Machine.execSerial s
  | .push ok => Sys2Proof.Machine.execPush ok s
  | .idle => Sys2Proof.Machine.execIdle s
  | .usbEvent kind => Sys2Proof.Machine.execUsbEvent kind s
  | .poll activity rx => Sys2Proof.Machine.execPoll activity rx s
  | .hostTake deliver => Sys2Proof.Machine.execHostTake deliver s
  | .bootDone => Sys2Proof.Machine.execBootDone s
  | .bootFail => Sys2Proof.Machine.execBootFail s
  | .reset => Sys2Proof.Machine.execReset s

end Sys2Proof.Machine
end

