-- ==== Sys2Proof/Machine/Schedule.lean ====
section
/-! DEFINITION. The free schedule: which enabled operation happens next, and with which draws, is free
(20_memory.md R48, 30_encoding.md R68; assumption log 4). -/

namespace Sys2Proof.Machine

/-- The operation and its draws that the free values of Config give at count `t`. -/
def drawnInstr (t : Nat) : Instr :=
  match Config.drawOp t with
  | .sample => .sample (Config.drawRaw t) (Config.drawNow t)
  | .serial => .serial
  | .push => .push (Config.drawOk t)
  | .idle => .idle
  | .usbEvent => .usbEvent (Config.drawKind t)
  | .poll => .poll (Config.drawActivity t) (Config.drawRx t)
  | .hostTake => .hostTake (Config.drawDeliver t)
  | .bootDone => .bootDone
  | .bootFail => .bootFail
  | .reset => .reset

/-- An operation that is enabled in every state of a mode; what happens when the free choice is not enabled, so
that the choice is always an enabled operation and may be any of them. -/
def defaultInstr (m : Mode) : Instr :=
  match m with
  | .boot => .bootDone
  | .run => .idle
  | .halt => .reset

/-- The next operation of the free schedule in state `s`: an enabled one (30_encoding.md R68). -/
def scheduled (s : State) : Instr :=
  if enabled (drawnInstr s.tick) s then drawnInstr s.tick else defaultInstr s.mode

end Sys2Proof.Machine
end

