-- ==== Sys2Proof/Machine/Step.lean ====
section
/-! DEFINITION. One step: one atomic operation (00_scope.md R6, 20_memory.md R48). -/

namespace Sys2Proof.Machine

/-- One step takes the port event at the head of the script, or, with no script, the next operation of the free
schedule (assumption logs 4 and 5). -/
def step (s : State) : Host.Outcome State Fault Refusal :=
  match s.script with
  | f :: rest =>
    match decode f with
    | .ok i => exec i { s with script := rest }
    | .error e => .refused (.undecodable e)
  | [] => exec (scheduled s) { s with tick := s.tick + 1 }

/-- The state whose next fetch is the table word `w` of `nbits` bits (assumption log 5). -/
def State.withFetchWord (s : State) (nbits w : Nat) : State :=
  { s with script := tableFetch nbits w :: s.script }

end Sys2Proof.Machine
end

