-- ==== Sys2Proof/Machine/Trace.lean ====
section
/-! DEFINITION. The trace notation's counts and pseudo-operations, expanded to the lines they stand for
(30_encoding.md R72). -/

namespace Sys2Proof.Machine

/-- A line of a trace before expansion: an operation with a count, `EMIT_SEND ok=b`, or
`SCAN s0..s15, now=t`. -/
inductive TraceItem where
  | counted (n : Nat) (l : TraceLine)
  | emitSend (ok : Bool)
  | scan (vals : Vector Sample 16) (now : Time)
deriving DecidableEq, Repr

/-- The line `SAMPLE s=v, now=t`. -/
def sampleLine (v : Sample) (now : Time) : TraceLine :=
  ⟨.sample, [⟨.s, .num v.toNat⟩, ⟨.now, .num now.toNat⟩]⟩

/-- `EMIT_SEND ok=b` is `SERIAL` then `PUSH ok=b`. -/
def emitSendLines (ok : Bool) : List TraceLine := [⟨.serial, []⟩, ⟨.push, [⟨.ok, bitLit ok⟩]⟩]

/-- Whether the sample `v` of channel `c` at time `now` emits in state `s`. -/
def emitsAt (s : State) (c : Chan) (v : Sample) (now : Time) : Bool :=
  (debounce (s.knob c).value (s.knob c).previous (s.knob c).lastChangeMs v now).emit

/-- The lines of one channel of a SCAN: its SAMPLE, and `EMIT_SEND ok=1` when its rule emits. -/
def scanChannelLines (s : State) (vals : Vector Sample 16) (now : Time) (c : Chan) : List TraceLine :=
  sampleLine vals[c.toNat] now :: if emitsAt s c vals[c.toNat] now then emitSendLines true else []

/-- The lines one item of a trace stands for, in a state in which its first line runs. -/
def TraceItem.lines (s : State) : TraceItem → List TraceLine
  | .counted n l => List.replicate n l
  | .emitSend ok => emitSendLines ok
  | .scan vals now => allChannels.flatMap (scanChannelLines s vals now)

/-- A state whose next steps are the lines of a trace item: the item laid out in the script
(assumption log 5). -/
def State.withTrace (s : State) (item : TraceItem) : State :=
  { s with script := (item.lines s).map Fetch.line ++ s.script }

end Sys2Proof.Machine
end

