-- ==== Sys2Proof/Safety.lean ====
section
/-! DEFINITION. The terms claims are made in: the invariant of the block's states, runs of operations and what
they send, what the producer can see, and the fairness premises of 70_reset_and_hazards.md R157. -/

namespace Sys2Proof.Machine

/-! States. -/

/-- The properties the source fixes for `CHANNEL_MAP`: a permutation of 0..15 (one to one on sixteen entries)
with entry 8 equal to 0 (10_state.md R20). -/
def MapOk (map : Vector Chan 16) : Prop :=
  (∀ c d : Chan, mapEntry map c = mapEntry map d → c = d) ∧ mapEntry map 8 = 0

/-- The invariant of a knob: at its reset value, or moved (10_state.md R19). -/
def KnobOk (k : Knob) : Prop := (k.value = 0 ∧ k.previous = 0) ∨ k.value ≠ k.previous

/-- Three bytes the block may send as a message: status `0xB0`, a controller in 101..116, a data byte
(30_encoding.md R64). -/
def IsBlockMessage (b0 b1 b2 : Byte) : Prop := b0 = 0xB0 ∧ 101 ≤ b1.toNat ∧ b1.toNat ≤ 116 ∧ b2.toNat < 128

/-- A packet the block may send: header `0x0B` around such a message (30_encoding.md R64). -/
def IsBlockPacket (p : Packet) : Prop := p.header = 0x0B ∧ IsBlockMessage p.m0 p.m1 p.m2

/-- A serial stream of whole messages (20_memory.md R50, 30_encoding.md R64). -/
def IsBlockStream : List Byte → Prop
  | b0 :: b1 :: b2 :: rest => IsBlockMessage b0 b1 b2 ∧ IsBlockStream rest
  | [] => True
  | _ => False

/-- The invariant of the block. -/
structure Inv (s : State) : Prop where
  /-- The channel map is a permutation with entry 8 equal to 0 (10_state.md R20). -/
  map : MapOk s.chanMap
  /-- Every knob is at its reset value or has `value` different from `previous` (10_state.md R19). -/
  knobs : ∀ c, KnobOk (s.knob c)
  /-- The occupancy of the queue (42_sender_cdc.md R105). -/
  occupancy : s.txq.length ≤ Config.usbTxDepth
  /-- `p_msg` is 3 bytes (10_state.md R23). -/
  msgSize : s.pMsg.length = 3
  /-- A held message is that of channel `scan_ch` and its new value (41_encoder.md R87, R91). -/
  msg : s.pPhase ≠ .sample →
    s.pMsg = [0xB0, BitVec.ofNat 8 (101 + (mapEntry s.chanMap s.scanCh).toNat), (s.knob s.scanCh).valueByte]
  /-- Everything queued or delivered is a packet of the block (30_encoding.md R64). -/
  queued : ∀ p ∈ s.txq, IsBlockPacket p
  /-- Everything queued or delivered is a packet of the block (30_encoding.md R64). -/
  delivered : ∀ p ∈ s.hostIn, IsBlockPacket p
  /-- The serial stream is whole messages of the block (20_memory.md R50, 30_encoding.md R64). -/
  serial : IsBlockStream s.serOut
  /-- In `BOOT` interrupts are off, nothing is queued and the producer is at its start
  (10_state.md R26, 70_reset_and_hazards.md R142, R145). -/
  boot : s.mode = .boot →
    s.irqEn = false ∧ s.fault = none ∧ s.txq = [] ∧ s.pPhase = .sample ∧ s.scanCh = 0
  /-- In `RUN` interrupts are on and there is no fault (60_exceptions.md R124, R128). -/
  run : s.mode = .run → s.irqEn = true ∧ s.fault = none
  /-- `HALT` is entered by an initialization failure only: `PKT_SIZE` is unreachable (60_exceptions.md R123). -/
  halt : s.mode = .halt → s.fault = some .initFail

/-! Runs of operations. -/

/-- The instructions of a list one after another, stopping at the first that does not complete. -/
def runOps : List Instr → State → Host.Outcome State Fault Refusal
  | [], s => .next s
  | i :: is, s =>
    match exec i s with
    | .next t => runOps is t
    | .fault f => .fault f
    | .refused r => .refused r

/-- The message SAMPLE emits in state `s`, as bytes; nothing for any other operation or when none is emitted
(40_scan_debounce.md R78). -/
def emittedBy (i : Instr) (s : State) : List Byte :=
  match i with
  | .sample raw now =>
    if emitsAt s s.scanCh (downscale raw) now then encodeCc s.chanMap s.scanCh (downscale raw) else []
  | _ => []

/-- The packet PUSH puts into the queue in state `s`; nothing for any other operation or for a drop
(42_sender_cdc.md R100). -/
def pushedBy (i : Instr) (s : State) : List Packet :=
  match i with
  | .push ok => if s.txq.length < Config.usbTxDepth && ok then (frame s.pMsg).toOption.toList else []
  | _ => []

/-- The bytes of the messages emitted along a run, in the order of their SAMPLE steps (20_memory.md R50). -/
def messagesOf : List Instr → State → List Byte
  | [], _ => []
  | i :: is, s =>
    match exec i s with
    | .next t => emittedBy i s ++ messagesOf is t
    | _ => []

/-- The packets successfully pushed along a run, in order (20_memory.md R49). -/
def pushesOf : List Instr → State → List Packet
  | [], _ => []
  | i :: is, s =>
    match exec i s with
    | .next t => pushedBy i s ++ pushesOf is t
    | _ => []

/-- The emitted message that is not yet in `ser_out` (20_memory.md R50). -/
def pendingMessage (s : State) : List Byte := if s.pPhase = .serial then s.pMsg else []

/-- A state some run of operations reaches from power-on (70_reset_and_hazards.md R156). -/
inductive Reachable : State → Prop where
  | powerOn : Reachable State.reset
  | step {s t : State} (i : Instr) (op : isOperation i = true) (h : Reachable s) (ht : exec i s = .next t) :
      Reachable t

/-! What the producer can see (42_sender_cdc.md R103). -/

/-- Two states with the same knob file, channel map, scan position, phase, held message, serial stream and
mode. -/
def SameProducer (s t : State) : Prop :=
  s.knobs = t.knobs ∧ s.chanMap = t.chanMap ∧ s.scanCh = t.scanCh ∧ s.pPhase = t.pPhase ∧
    s.pMsg = t.pMsg ∧ s.serOut = t.serOut ∧ s.mode = t.mode

/-- An instruction as the producer side sees it: the USB side's operations, the waits and the formats vanish, and
the outcome that PUSH reports is forgotten. -/
def producerAct : Instr → Option Instr
  | .sample raw now => some (.sample raw now)
  | .serial => some .serial
  | .push _ => some (.push true)
  | .bootDone => some .bootDone
  | .bootFail => some .bootFail
  | .reset => some .reset
  | .idle | .usbEvent _ | .poll _ _ | .hostTake _ => none
  | .ccMsg _ _ | .usbMidiCcPkt _ _ => none
  | .usbInSysex _ _ _ _ _ | .usbInRegularLo _ _ _ _ _ | .usbInRegularHi _ _ _ _ _ => none

/-- Whether an operation is one of the USB side's (20_memory.md R46). -/
def isUsbSide : Instr → Bool
  | .usbEvent _ | .poll _ _ | .hostTake _ => true
  | _ => false

/-! Infinite runs and fairness (70_reset_and_hazards.md R156, R157). -/

/-- An infinite sequence of operations and the states between them. -/
structure Run where
  op : Nat → Instr
  at_ : Nat → State

/-- Each operation of the run completes and gives the run's next state. -/
def Run.Ok (r : Run) : Prop :=
  ∀ n, isOperation (r.op n) = true ∧ exec (r.op n) (r.at_ n) = .next (r.at_ (n + 1))

/-- The run stays in `RUN` from step `n` on. -/
def Run.StaysRunning (r : Run) (n : Nat) : Prop := ∀ m, n ≤ m → (r.at_ m).mode = .run

/-- The producer's steps other than IDLE. -/
def isProducerWork : Instr → Bool
  | .sample _ _ | .serial | .push _ => true
  | _ => false

/-- F1: in `RUN`, the producer takes a step other than IDLE infinitely often. -/
def Run.F1 (r : Run) : Prop :=
  ∀ n, r.StaysRunning n → ∀ m, n ≤ m → ∃ k, m ≤ k ∧ isProducerWork (r.op k) = true

/-- F2: a POLL follows every USB_EVENT taken in `RUN` with `irq_en = 1`. -/
def Run.F2 (r : Run) : Prop :=
  ∀ n kind, r.op n = .usbEvent kind → (r.at_ n).mode = .run → (r.at_ n).irqEn = true →
    ∃ m, n < m ∧ ∃ a rx, r.op m = .poll a rx

/-- F3: HOST_TAKE happens infinitely often while `txq` is not empty. -/
def Run.F3 (r : Run) : Prop :=
  ∀ n, (∀ m, n ≤ m → (r.at_ m).txq ≠ []) → ∀ m, n ≤ m → ∃ k, m ≤ k ∧ ∃ d, r.op k = .hostTake d

/-- F4: a packet is lost at HOST_TAKE only finitely often. -/
def Run.F4 (r : Run) : Prop := ∃ n, ∀ m, n ≤ m → r.op m ≠ .hostTake false

end Sys2Proof.Machine
end

