-- ==== Sys2Proof/Certificates/Slice0/Obligations.lean ====
section
/-! DEFINITION. The statements for the provers, from the numbered rules of spec/. -/

open Sys2Proof Sys2Proof.Machine

/-! Reset and boot. -/

/-- 70_reset_and_hazards.md R141: RESET completes in every state and gives every listed piece of state its reset
value, keeps the two logs, and is the only operation that completes in `HALT`. -/
def Obligations.ResetRestoresTheBlock : Prop :=
  ∀ s : State,
    (∃ t, exec .reset s = .next t ∧ (∀ c, t.knob c = ⟨0, 0, 0⟩) ∧ t.scanCh = 0 ∧ t.pPhase = .sample ∧
      t.txq = [] ∧ t.usbPend = false ∧ t.irqEn = false ∧ t.mode = .boot ∧ t.fault = none ∧
      t.serOut = s.serOut ∧ t.hostIn = s.hostIn) ∧
    (s.mode = .halt → ∀ i t, isOperation i = true → exec i s = .next t → i = .reset)

/-- Model's choice, assumption log 14: RESET writes neither `p_msg` nor the channel map nor the multiplexer's level
nor the model's own fields. -/
def Obligations.ResetKeepsTheRest : Prop :=
  ∀ s t : State, exec .reset s = .next t →
    t.pMsg = s.pMsg ∧ t.chanMap = s.chanMap ∧ t.muxSel = s.muxSel ∧ t.script = s.script ∧ t.tick = s.tick ∧
      t.fmtOut = s.fmtOut

/-- 10_state.md R34: the reset values, at power-on and after RESET; the logs are empty at power-on and RESET keeps
them. -/
def Obligations.ResetValuesAreThoseListed : Prop :=
  (∀ t : State, (t = State.reset ∨ ∃ s, exec .reset s = .next t) →
    (∀ c, (t.knob c).value = 0 ∧ (t.knob c).previous = 0 ∧ (t.knob c).lastChangeMs = 0) ∧ t.scanCh = 0 ∧
      t.pPhase = .sample ∧ t.txq = [] ∧ t.usbPend = false ∧ t.irqEn = false ∧ t.mode = .boot ∧ t.fault = none) ∧
  State.reset.serOut = [] ∧ State.reset.hostIn = [] ∧ State.reset.chanMap = Config.channelMap ∧
  (∀ s t, exec .reset s = .next t → t.serOut = s.serOut ∧ t.hostIn = s.hostIn ∧ t.chanMap = s.chanMap)

/-- 70_reset_and_hazards.md R145: BOOT_DONE is enabled in `BOOT` alone, sets `irq_en` and `mode`, and leaves the
producer at channel 0 in phase SAMPLE. -/
def Obligations.BootDoneStartsRunning : Prop :=
  ∀ s : State,
    (s.mode = .boot → exec .bootDone s = .next { s with irqEn := true, mode := .run }) ∧
    (s.mode ≠ .boot → exec .bootDone s = .fault (.notEnabled .bootDone)) ∧
    (Inv s → ∀ t, exec .bootDone s = .next t → t.scanCh = 0 ∧ t.pPhase = .sample)

/-- 70_reset_and_hazards.md R144: BOOT_FAIL is enabled in `BOOT` alone and raises fault 2; after it nothing completes
but RESET. -/
def Obligations.BootFailHaltsTheBlock : Prop :=
  ∀ s : State,
    (s.mode = .boot → exec .bootFail s = .next { s with fault := some .initFail, mode := .halt }) ∧
    (s.mode ≠ .boot → exec .bootFail s = .fault (.notEnabled .bootFail)) ∧
    FaultCode.number .initFail = 2 ∧
    (∀ t, exec .bootFail s = .next t → ∀ i u, isOperation i = true → exec i t = .next u → i = .reset)

/-- 60_exceptions.md R124: raising a fault sets `fault` and `mode` and nothing else; in `HALT` every operation but
RESET has no step, and RESET clears the fault, keeps the logs and loses what is queued. -/
def Obligations.FaultsAreStickyUntilReset : Prop :=
  (∀ code s, raiseFault code s = { s with fault := some code, mode := .halt }) ∧
  (∀ (s : State) i, s.mode = .halt → isOperation i = true → wellFormed i = true → i ≠ .reset →
    ∃ op, exec i s = .fault (.notEnabled op)) ∧
  (∀ s t : State, exec .reset s = .next t →
    t.fault = none ∧ t.mode = .boot ∧ t.txq = [] ∧ t.serOut = s.serOut ∧ t.hostIn = s.hostIn)

/-! The producer. -/

/-- 40_scan_debounce.md R78 and R84: SAMPLE in `RUN` and phase SAMPLE drives the multiplexer and does one of three
things, and completes in each: no transition, an emitted transition, a suppressed one. Elsewhere it has no step. -/
def Obligations.SampleFollowsTheDebounceRule : Prop :=
  ∀ (s : State) (raw : BitVec Config.adcBits) (now : Time) (c : Chan) (k : Knob) (v : Sample),
    c = s.scanCh → k = s.knob c → v = downscale raw →
    (s.mode = .run → s.pPhase = .sample →
      (v = k.value →
        exec (.sample raw now) s = .next { s with muxSel := c, scanCh := c + 1 }) ∧
      (v ≠ k.value → v ≠ k.previous ∨ now.toNat ≤ k.lastChangeMs.toNat + 50 →
        exec (.sample raw now) s = .next { s with
          muxSel := c
          knobs := s.knobs.set c.toNat ⟨v, k.value, now⟩
          pMsg := [0xB0, BitVec.ofNat 8 (101 + (mapEntry s.chanMap c).toNat), 0#1 ++ v]
          pPhase := .serial }) ∧
      (v ≠ k.value → v = k.previous → k.lastChangeMs.toNat + 50 < now.toNat →
        exec (.sample raw now) s = .next { s with
          muxSel := c
          knobs := s.knobs.set c.toNat ⟨v, k.value, now⟩
          scanCh := c + 1 })) ∧
    (¬(s.mode = .run ∧ s.pPhase = .sample) → exec (.sample raw now) s = .fault (.notEnabled .sample))

/-- 40_scan_debounce.md R85 item 10, which the spec marks as derived: a sample of channel `scan_ch` leaves every other
knob as it was, and nothing of the queue, the logs or the interrupt bits changes. -/
def Obligations.SampleTouchesOneKnob : Prop :=
  ∀ (s t : State) raw now, exec (.sample raw now) s = .next t →
    (∀ c, c ≠ s.scanCh → t.knob c = s.knob c) ∧ t.chanMap = s.chanMap ∧ t.txq = s.txq ∧ t.serOut = s.serOut ∧
      t.hostIn = s.hostIn ∧ t.usbPend = s.usbPend ∧ t.irqEn = s.irqEn ∧ t.mode = s.mode ∧ t.fault = s.fault

/-- 40_scan_debounce.md R82: the knob update of a transition is the same whether it is emitted or suppressed. -/
def Obligations.SuppressionNeverChangesTheUpdate : Prop :=
  ∀ (s t : State) raw now, exec (.sample raw now) s = .next t → downscale raw ≠ (s.knob s.scanCh).value →
    t.knob s.scanCh = ⟨downscale raw, (s.knob s.scanCh).value, now⟩

/-- 40_scan_debounce.md R81, R83 and R84, which the spec marks as derived: when a sample is emitted, in plain numbers;
one whose time lies before the last transition's always is. -/
def Obligations.DebounceClosedForm : Prop :=
  ∀ (V P : Sample) (T : Time) (s : Sample) (now : Time),
    ((debounce V P T s now).emit = true ↔ s ≠ V ∧ (s ≠ P ∨ now.toNat ≤ T.toNat + 50)) ∧
    (s ≠ V → s = P → T.toNat ≤ now.toNat →
      ((now.toNat - T.toNat ≤ 50 → (debounce V P T s now).emit = true) ∧
       (51 ≤ now.toNat - T.toNat → (debounce V P T s now).emit = false))) ∧
    (s ≠ V → now.toNat < T.toNat → (debounce V P T s now).emit = true)

/-- 40_scan_debounce.md R80: the sum does not wrap. Near the end of the counter nothing is suppressed. -/
def Obligations.GateSumNeverWraps : Prop :=
  ∀ (V P : Sample) (T : Time) (s : Sample) (now : Time), s ≠ V →
    (gateExpired T now = true ↔ T.toNat + 50 < now.toNat) ∧
    (2 ^ 32 - 50 ≤ T.toNat → (debounce V P T s now).emit = true)

/-- 10_state.md R35, which the spec marks as derived: while `value` equals `previous`, the time of the last change
cannot be seen, and a transition is emitted. -/
def Obligations.FirstTransitionIgnoresTheTime : Prop :=
  ∀ (V : Sample) (T T' : Time) (s : Sample) (now : Time),
    debounce V V T s now = debounce V V T' s now ∧ (s ≠ V → (debounce V V T s now).emit = true)

/-- 40_scan_debounce.md R74, and R75, which the spec marks as derived: the down-scale is the division by `2 ^
(ADC_BITS - 7)`, is monotonic, stays in 0..127, and every knob field has bit 7 zero. -/
def Obligations.DownscaleIsMonotonic : Prop :=
  (∀ raw : BitVec Config.adcBits, (downscale raw).toNat = raw.toNat / 2 ^ (Config.adcBits - 7) ∧
    (downscale raw).toNat ≤ 127) ∧
  (∀ a b : BitVec Config.adcBits, a.toNat ≤ b.toNat → (downscale a).toNat ≤ (downscale b).toNat) ∧
  (∀ k : Knob, k.valueByte.getLsbD 7 = false ∧ k.previousByte.getLsbD 7 = false)

/-- 42_sender_cdc.md R96: SERIAL appends the three bytes of `p_msg` in order and goes on to PUSH; where it is not
enabled it has no step. -/
def Obligations.SerialWritesTheMessage : Prop :=
  ∀ (s : State) (b0 b1 b2 : Byte),
    (s.mode = .run → s.pPhase = .serial → s.pMsg = [b0, b1, b2] →
      exec .serial s = .next { s with serOut := s.serOut ++ [b0, b1, b2], pPhase := .push }) ∧
    (¬(s.mode = .run ∧ s.pPhase = .serial) → exec .serial s = .fault (.notEnabled .serial))

/-- Model's choice, assumption log 10: SERIAL completes on a `p_msg` of any length, with three bytes written, each
that of `p_msg` where it has one. -/
def Obligations.SerialCompletesOnAnyMessage : Prop :=
  ∀ s : State, s.mode = .run → s.pPhase = .serial →
    ∃ b0 b1 b2, exec .serial s = .next { s with serOut := s.serOut ++ [b0, b1, b2], pPhase := .push } ∧
      (∀ b, s.pMsg[0]? = some b → b0 = b) ∧ (∀ b, s.pMsg[1]? = some b → b1 = b) ∧
      (∀ b, s.pMsg[2]? = some b → b2 = b)

/-- 42_sender_cdc.md R100: PUSH appends the framed message with room and `ok`, drops it otherwise, and finishes the
channel either way; a payload of another length than 3 raises fault 1, nothing is pushed and the channel does not
advance; where it is not enabled it has no step. -/
def Obligations.PushQueuesOrDrops : Prop :=
  ∀ (s : State) (ok : Bool),
    (∀ b0 b1 b2, s.mode = .run → s.pPhase = .push → s.pMsg = [b0, b1, b2] →
      (s.txq.length < Config.usbTxDepth → ok = true → exec (.push ok) s = .next { s with
        txq := s.txq ++ [⟨0x0B, b0, b1, b2⟩], scanCh := s.scanCh + 1, pPhase := .sample }) ∧
      (Config.usbTxDepth ≤ s.txq.length ∨ ok = false → exec (.push ok) s = .next { s with
        scanCh := s.scanCh + 1, pPhase := .sample })) ∧
    (s.mode = .run → s.pPhase = .push → s.pMsg.length ≠ 3 →
      exec (.push ok) s = .next { s with fault := some .pktSize, mode := .halt } ∧
      FaultCode.number .pktSize = 1) ∧
    (¬(s.mode = .run ∧ s.pPhase = .push) → exec (.push ok) s = .fault (.notEnabled .push))

/-- 60_exceptions.md R139: IDLE is enabled in `RUN` and changes nothing. -/
def Obligations.IdleChangesNothing : Prop :=
  ∀ s : State, (s.mode = .run → exec .idle s = .next s) ∧
    (s.mode ≠ .run → exec .idle s = .fault (.notEnabled .idle))

/-- 40_scan_debounce.md R77, 42_sender_cdc.md R95: one channel takes one turn. A sample that emits is followed by
SERIAL and PUSH and nothing else, one that does not ends the turn; the scan then stands at the next channel, whatever
the push reports, with the sampled value in the knob. -/
def Obligations.OneChannelTakesOneTurn : Prop :=
  ∀ (s : State) raw now ok, s.mode = .run → s.pPhase = .sample →
    ∃ t, runOps (if emitsAt s s.scanCh (downscale raw) now then [.sample raw now, .serial, .push ok]
          else [.sample raw now]) s = .next t ∧
      t.scanCh = s.scanCh + 1 ∧ t.pPhase = .sample ∧ t.mode = .run ∧
      (t.knob s.scanCh).value = downscale raw ∧ (∀ c, c ≠ s.scanCh → t.knob c = s.knob c) ∧
      t.serOut = s.serOut ++ emittedBy (.sample raw now) s

/-! The encoder and the formats. -/

/-- 41_encoder.md R88 and R89: the sixteen controller numbers are 101 to 116, each that of exactly one channel. -/
def Obligations.ControllerNumbersAreABijection : Prop :=
  ∀ map : Vector Chan 16, MapOk map →
    (∀ c, 101 ≤ (controllerOf map c).toNat ∧ (controllerOf map c).toNat ≤ 116) ∧
    (∀ n, 101 ≤ n → n ≤ 116 → ∃! c, (controllerOf map c).toNat = n)

/-- 41_encoder.md R90: physical channel 8 has offset 0 and controller number 101, in the map of the block, which every
reachable state holds. -/
def Obligations.ChannelEightIsController101 : Prop :=
  mapEntry Config.channelMap 8 = 0 ∧ (controllerOf Config.channelMap 8).toNat = 101 ∧
    (∀ s, Reachable s → s.chanMap = Config.channelMap ∧
      ∀ v : Sample, encodeCc s.chanMap 8 v = [0xB0, 0x65, 0#1 ++ v])

/-- 30_encoding.md R57 and R58: every message of the encoder matches `0xB00000` under the mask `0xFF8080` and carries
the controller `101 + CHANNEL_MAP[c]` and the value. -/
def Obligations.MessagesMatchTheirPattern : Prop :=
  ∀ (map : Vector Chan 16) (c : Chan) (v : Sample), ∃ b0 b1 b2 : Byte,
    encodeCc map c v = [b0, b1, b2] ∧ (b0 ++ b1 ++ b2) &&& 0xFF8080#24 = 0xB00000#24 ∧ b0 = 0xB0 ∧
      b1.toNat = 101 + (mapEntry map c).toNat ∧ b2.toNat = v.toNat

/-- 30_encoding.md R60, 42_sender_cdc.md R98: the packet around a message of the encoder matches `0x0BB00000` under
the mask `0xFFFF8080` and carries the message's three bytes; any three bytes have a packet, a payload of another
length has none. -/
def Obligations.PacketsMatchTheirPattern : Prop :=
  (∀ (map : Vector Chan 16) (c : Chan) (v : Sample), ∃ p : Packet, frame (encodeCc map c v) = .ok p ∧
    (p.header ++ p.m0 ++ p.m1 ++ p.m2) &&& 0xFFFF8080#32 = 0x0BB00000#32 ∧ p.header = 0x0B ∧
    p.bytes = 0x0B :: encodeCc map c v) ∧
  (∀ b0 b1 b2 : Byte, frame [b0, b1, b2] = .ok ⟨0x0B, b0, b1, b2⟩) ∧
  (∀ m : List Byte, m.length ≠ 3 → frame m = .error .pktSize)

/-- The row CC_MSG as an instruction (model's choice, assumption log 7), after 30_encoding.md R61 and R64: it renders,
for each of the 16 controllers of a channel map, the message with that controller and value, and nothing for any other
controller; it writes no state of the block. -/
def Obligations.CcMsgRowRendersEmittedMessages : Prop :=
  ∀ (s : State) (c v : BitVec 7), MapOk s.chanMap →
    exec (.ccMsg c v) s = .next { s with
      fmtOut := if 101 ≤ c.toNat ∧ c.toNat ≤ 116 then some [0xB0, 0#1 ++ c, 0#1 ++ v] else none }

/-- The row USBMIDI_CC_PKT as an instruction (model's choice, assumption log 7), after 30_encoding.md R61 and R64 and
42_sender_cdc.md R98: it renders the framed message for each of the 16 controllers and nothing for any other; it
writes no state of the block. -/
def Obligations.UsbPktRowRendersFramedMessages : Prop :=
  ∀ (s : State) (c v : BitVec 7), MapOk s.chanMap →
    exec (.usbMidiCcPkt c v) s = .next { s with
      fmtOut := if 101 ≤ c.toNat ∧ c.toNat ≤ 116 then some [0x0B, 0xB0, 0#1 ++ c, 0#1 ++ v] else none }

/-- The inbound rows of the table as instructions (model's choice, assumption log 7), after 43_usb_poll.md R116: each
is discarded. -/
def Obligations.InboundRowsChangeNothing : Prop :=
  ∀ (s : State) (k : BitVec 4) (i : BitVec 2) (j : BitVec 3) (a b c : Byte),
    exec (.usbInSysex k i a b c) s = .next s ∧ exec (.usbInRegularLo k i a b c) s = .next s ∧
      exec (.usbInRegularHi k j a b c) s = .next s

/-- 30_encoding.md R63, 43_usb_poll.md R116: every inbound packet is of exactly one row, by its row's mask and match;
its class is SYSEX exactly for the Code Index Numbers 4 to 7 and REGULAR for every other; it is dropped in either
class. -/
def Obligations.InboundPacketsHaveOneRow : Prop :=
  ∀ p : Packet,
    (classOf p = .sysex ↔ (cinOf p).toNat ∈ [4, 5, 6, 7]) ∧
    (classOf p = .regular ↔ (cinOf p).toNat ∉ [4, 5, 6, 7]) ∧ (∀ s, discardInbound p s = s) ∧
    ((∃ k i a b c, decodeInbound p = .usbInSysex k i a b c) ↔
      (p.header ++ p.m0 ++ p.m1 ++ p.m2) &&& 0x0C000000#32 = 0x04000000#32) ∧
    ((∃ k i a b c, decodeInbound p = .usbInRegularLo k i a b c) ↔
      (p.header ++ p.m0 ++ p.m1 ++ p.m2) &&& 0x0C000000#32 = 0x00000000#32) ∧
    ((∃ k i a b c, decodeInbound p = .usbInRegularHi k i a b c) ↔
      (p.header ++ p.m0 ++ p.m1 ++ p.m2) &&& 0x08000000#32 = 0x08000000#32) ∧
    encode (decodeInbound p) = .bytes .usbOut p.bytes

/-- 43_usb_poll.md R115: the parse gives `L / 4` packets, which are the bytes in order but for the last `L mod 4`. -/
def Obligations.ParseCutsWholePackets : Prop :=
  ∀ bs : List Byte, (parse bs).length = bs.length / 4 ∧
    (parse bs).flatMap Packet.bytes = bs.take (4 * (bs.length / 4))

/-- 30_encoding.md R56, R57, R60, R63, R72: decoding the written form of a well-formed instruction gives it back, with
every operand. -/
def Obligations.DecodeOfEncodeIsTheInstruction : Prop :=
  ∀ i : Instr, wellFormed i = true → decode (encode i) = .ok i

/-- 30_encoding.md R57, R60, R63, R72: written words decode to the instructions they stand for, and words outside the
patterns do not decode. -/
def Obligations.WrittenWordsDecode : Prop :=
  decode (.bytes .serTx [0b10110000, 0b01100101, 0b01000000]) = .ok (.ccMsg 101 64) ∧
  decode (.bytes .usbIn [0b00001011, 0b10110000, 0b01110100, 0b01111111]) = .ok (.usbMidiCcPkt 116 127) ∧
  decode (.bytes .usbOut [0b00010110, 0xF0, 0x01, 0x02]) = .ok (.usbInSysex 1 2 0xF0 1 2) ∧
  decode (.bytes .usbOut [0b00000011, 0x00, 0x80, 0xFF]) = .ok (.usbInRegularLo 0 3 0 0x80 0xFF) ∧
  decode (.bytes .usbOut [0b00001001, 0x90, 0x3C, 0x7F]) = .ok (.usbInRegularHi 0 1 0x90 0x3C 0x7F) ∧
  decode (.line ⟨.push, [⟨.ok, .num 1⟩]⟩) = .ok (.push true) ∧
  decode (.bytes .serTx [0b10110001, 101, 64]) = .error .notCcMsg ∧
  decode (.line ⟨.hostTake, [⟨.deliver, .num 2⟩]⟩) = .error (.outOfRange .hostTake)

/-- 30_encoding.md R72: the line `SAMPLE s=v, now=t` decodes to a SAMPLE whose conversion is down-scaled to `v`. -/
def Obligations.TraceSampleStandsForItsValue : Prop :=
  ∀ (v : Sample) (now : Time), ∃ raw, decode (.line (sampleLine v now)) = .ok (.sample raw now) ∧ downscale raw = v

/-! The USB side. -/

/-- 43_usb_poll.md R109: USB_EVENT sets `usb_pend` in `BOOT` and `RUN`, for either line, and has no step in `HALT`. -/
def Obligations.UsbEventSetsPending : Prop :=
  ∀ (s : State) kind,
    (s.mode = .boot ∨ s.mode = .run → exec (.usbEvent kind) s = .next { s with usbPend := true }) ∧
    (s.mode = .halt → exec (.usbEvent kind) s = .fault (.notEnabled .usbEvent))

/-- 43_usb_poll.md R110: an enabled POLL with any read its port can carry clears `usb_pend` and writes nothing else;
one that is not enabled has no step. -/
def Obligations.PollWritesOnlyPending : Prop :=
  ∀ (s : State) activity (rx : List Byte), rx.length ≤ 64 → (activity = false → rx = []) →
    (s.mode = .run → s.irqEn = true → s.usbPend = true →
      exec (.poll activity rx) s = .next { s with usbPend := false }) ∧
    (¬(s.mode = .run ∧ s.irqEn = true ∧ s.usbPend = true) →
      exec (.poll activity rx) s = .fault (.notEnabled .poll))

/-- Model's choice, assumption log 16, for what 30_encoding.md R65 and 92_eei_decisions.md D29 exclude: a read of more
than 64 bytes, or of any byte without activity, is refused in every state. -/
def Obligations.PollRefusesOtherReads : Prop :=
  ∀ (s : State) activity (rx : List Byte), 64 < rx.length ∨ (activity = false ∧ rx ≠ []) →
    exec (.poll activity rx) s = .refused (.unrepresentable .poll)

/-- 60_exceptions.md R130: several events before one POLL set the one pending bit, which that POLL clears. -/
def Obligations.OnePollServesAllEvents : Prop :=
  ∀ (s : State) (kinds : List UsbKind) activity (rx : List Byte), kinds ≠ [] → s.mode = .run → s.irqEn = true →
    rx.length ≤ 64 → (activity = false → rx = []) →
    runOps (kinds.map .usbEvent) s = .next { s with usbPend := true } ∧
    runOps (kinds.map .usbEvent ++ [.poll activity rx]) s = .next { s with usbPend := false }

/-- 43_usb_poll.md R113: HOST_TAKE removes the head of the queue, which reaches the host or is lost; with an empty
queue, or outside `RUN`, it has no step. -/
def Obligations.HostTakeMovesTheHead : Prop :=
  ∀ s : State,
    (∀ p rest, s.mode = .run → s.txq = p :: rest →
      exec (.hostTake true) s = .next { s with txq := rest, hostIn := s.hostIn ++ [p] } ∧
      exec (.hostTake false) s = .next { s with txq := rest }) ∧
    (∀ deliver, s.mode ≠ .run ∨ s.txq = [] → exec (.hostTake deliver) s = .fault (.notEnabled .hostTake))

/-- 42_sender_cdc.md R105, which the spec marks as derived, and 70_reset_and_hazards.md R141 for RESET: the queue
never exceeds its depth, only PUSH lengthens it, by one, and only HOST_TAKE, by one, and RESET, to nothing, shorten
it. -/
def Obligations.QueueLengthChangesByOne : Prop :=
  ∀ (s t : State) i, exec i s = .next t →
    (s.txq.length ≤ Config.usbTxDepth → t.txq.length ≤ Config.usbTxDepth) ∧
    (s.txq.length < t.txq.length → i = .push true ∧ t.txq.length = s.txq.length + 1) ∧
    (t.txq.length < s.txq.length →
      (∃ d, i = .hostTake d ∧ t.txq.length + 1 = s.txq.length) ∨ (i = .reset ∧ t.txq = []))

/-! The whole machine. -/

/-- 30_encoding.md R70: an operation with presentable operands completes exactly where it is enabled, and the
producer's operations follow one another in phase order. -/
def Obligations.OperationsStepExactlyWhereEnabled : Prop :=
  ∀ s : State,
    (∀ raw now, (∃ t, exec (.sample raw now) s = .next t) ↔ s.mode = .run ∧ s.pPhase = .sample) ∧
    ((∃ t, exec .serial s = .next t) ↔ s.mode = .run ∧ s.pPhase = .serial) ∧
    (∀ ok, (∃ t, exec (.push ok) s = .next t) ↔ s.mode = .run ∧ s.pPhase = .push) ∧
    ((∃ t, exec .idle s = .next t) ↔ s.mode = .run) ∧
    (∀ kind, (∃ t, exec (.usbEvent kind) s = .next t) ↔ s.mode = .boot ∨ s.mode = .run) ∧
    (∀ a rx, presentableRead a rx = true →
      ((∃ t, exec (.poll a rx) s = .next t) ↔ s.mode = .run ∧ s.irqEn = true ∧ s.usbPend = true)) ∧
    (∀ d, (∃ t, exec (.hostTake d) s = .next t) ↔ s.mode = .run ∧ s.txq ≠ []) ∧
    ((∃ t, exec .bootDone s = .next t) ↔ s.mode = .boot) ∧
    ((∃ t, exec .bootFail s = .next t) ↔ s.mode = .boot) ∧
    (∃ t, exec .reset s = .next t) ∧
    (∀ i t, isProducerWork i = true → exec i s = .next t → t.mode = .run →
      (s.pPhase = .sample ∧ t.pPhase = if emittedBy i s = [] then .sample else .serial) ∨
      (s.pPhase = .serial ∧ t.pPhase = .push) ∨ (s.pPhase = .push ∧ t.pPhase = .sample))

/-- 10_state.md, section 7, a table the spec marks as derived: which operations write which piece of state; the channel
map is written by none, and the scan position moves by one or, at RESET, to 0. The level of `mux_sel` and the model's own
fields are the model's additions (assumption logs 4, 5, 7 and 11). -/
def Obligations.EachOperationWritesOnlyItsState : Prop :=
  ∀ (i : Instr) (s t : State), exec i s = .next t →
    (t.knobs ≠ s.knobs → (∃ raw now, i = .sample raw now) ∨ i = .reset) ∧
    t.chanMap = s.chanMap ∧
    (t.scanCh ≠ s.scanCh →
      (((∃ raw now, i = .sample raw now) ∨ ∃ ok, i = .push ok) ∧ t.scanCh = s.scanCh + 1) ∨
      (i = .reset ∧ t.scanCh = 0)) ∧
    (t.pPhase ≠ s.pPhase → isProducerWork i = true ∨ i = .reset) ∧
    (t.pMsg ≠ s.pMsg → ∃ raw now, i = .sample raw now) ∧
    (t.txq ≠ s.txq → (∃ ok, i = .push ok) ∨ (∃ d, i = .hostTake d) ∨ i = .reset) ∧
    (t.usbPend ≠ s.usbPend → (∃ k, i = .usbEvent k) ∨ (∃ a rx, i = .poll a rx) ∨ i = .reset) ∧
    (t.irqEn ≠ s.irqEn → i = .bootDone ∨ i = .reset) ∧
    (t.mode ≠ s.mode ∨ t.fault ≠ s.fault → i = .bootDone ∨ i = .bootFail ∨ i = .reset ∨
      ((∃ ok, i = .push ok) ∧ s.pMsg.length ≠ 3 ∧ t.fault = some .pktSize)) ∧
    (t.serOut ≠ s.serOut → i = .serial) ∧
    (t.hostIn ≠ s.hostIn → i = .hostTake true) ∧
    (t.muxSel ≠ s.muxSel → ∃ raw now, i = .sample raw now) ∧
    (t.fmtOut ≠ s.fmtOut → isOperation i = false) ∧ t.script = s.script ∧ t.tick = s.tick

/-- The model's own step, assumption logs 4 and 5: the fetch at the head of the script decodes to an instruction, or
the next operation of the free schedule is one: the step is its meaning at that state with the fetch consumed. -/
def Obligations.StepRunsTheDecodedInstruction : Prop :=
  (∀ (s : State) f rest i, s.script = f :: rest → decode f = .ok i → step s = exec i { s with script := rest }) ∧
  (∀ (s : State) f rest e, s.script = f :: rest → decode f = .error e → step s = .refused (.undecodable e)) ∧
  (∀ s : State, s.script = [] → step s = exec (scheduled s) { s with tick := s.tick + 1 }) ∧
  (∀ (s : State) nbits w i, decodeTableWord nbits w = some i → step (s.withFetchWord nbits w) = exec i s)

/-- The model's free schedule, assumption log 4, after 30_encoding.md R68: with no script, a step is one enabled,
well-formed operation, and it completes. -/
def Obligations.FreeScheduleTakesAnEnabledOperation : Prop :=
  ∀ s : State, s.script = [] → ∃ i t, isOperation i = true ∧ wellFormed i = true ∧ enabled i s = true ∧
    exec i { s with tick := s.tick + 1 } = .next t ∧ step s = .next t

/-- 10_state.md R19, R20 and R23, 30_encoding.md R64, 42_sender_cdc.md R105, some of which the spec marks as derived:
every step keeps the invariant of the block. -/
def Obligations.StepKeepsTheInvariant : Prop :=
  ∀ s t : State, Inv s → step s = .next t → Inv t

/-- The state at power-on meets the invariant of the block. -/
def Obligations.PowerOnMeetsTheInvariant : Prop :=
  Inv State.reset

/-- 42_sender_cdc.md R99, which the spec marks as derived, and 60_exceptions.md R123: no run of operations from
power-on raises `PKT_SIZE`, and in every state it reaches a held message is the encoding of channel `scan_ch`. -/
def Obligations.PktSizeIsUnreachable : Prop :=
  ∀ s : State, Reachable s → s.fault ≠ some .pktSize ∧
    (s.pPhase ≠ .sample → s.pMsg = encodeCc s.chanMap s.scanCh (s.knob s.scanCh).value)

/-- 00_scope.md R7: the open parameters meet their constraints. -/
def Obligations.OpenParametersMeetTheirConstraints : Prop :=
  1 ≤ Config.usbTxDepth ∧ 8 ≤ Config.adcBits ∧ MapOk Config.channelMap

/-- 10_state.md R29: along every run the two output logs are only appended to. -/
def Obligations.OutputsAreAppendOnly : Prop :=
  ∀ (ops : List Instr) (s t : State), runOps ops s = .next t → s.serOut <+: t.serOut ∧ s.hostIn <+: t.hostIn

/-- 20_memory.md R49: along every run, what the host receives, followed by what is still queued, is an in-order
subsequence of what was queued at the start followed by the successful pushes. -/
def Obligations.UsbPacketsKeepTheirOrder : Prop :=
  ∀ (ops : List Instr) (s t : State), runOps ops s = .next t →
    ∃ got, t.hostIn = s.hostIn ++ got ∧ (got ++ t.txq).Sublist (s.txq ++ pushesOf ops s)

/-- 20_memory.md R50, which the spec marks as derived: along every run without RESET, the serial stream followed by
the one message not yet written is what it was at the start followed by the emitted messages, whole and in the order
of their SAMPLE steps. -/
def Obligations.SerialStreamIsTheEmittedMessages : Prop :=
  ∀ (ops : List Instr) (s t : State), .reset ∉ ops → (s.pPhase = .serial → s.pMsg.length = 3) →
    runOps ops s = .next t →
    t.serOut ++ pendingMessage t = s.serOut ++ pendingMessage s ++ messagesOf ops s

/-- 42_sender_cdc.md R103, which the spec marks as derived: two runs that agree in what the producer sees at the start
and in the producer's operations agree in it at the end, whatever the USB side does and whatever the pushes report. -/
def Obligations.UsbSideNeverReachesTheProducer : Prop :=
  ∀ (ops ops' : List Instr) (s s' t t' : State),
    ops.filterMap producerAct = ops'.filterMap producerAct → SameProducer s s' →
    runOps ops s = .next t → runOps ops' s' = .next t' → SameProducer t t'

/-- 42_sender_cdc.md R102, which the spec marks as derived, and 20_memory.md R46: for one emitted message, whatever
USB operations and waits fall between its SERIAL and its PUSH, the three bytes appended to the serial stream are bytes
1 to 3 of the packet that PUSH puts at the end of the queue, if it puts one. -/
def Obligations.BothTransportsCarryTheSameBytes : Prop :=
  ∀ (s t : State) (between : List Instr) ok (b0 b1 b2 : Byte),
    (∀ i ∈ between, isUsbSide i = true ∨ i = .idle) → s.pPhase = .serial → s.pMsg = [b0, b1, b2] →
    runOps ([.serial] ++ between ++ [.push ok]) s = .next t →
    t.serOut = s.serOut ++ [b0, b1, b2] ∧
      ∃ q, q <:+ s.txq ∧ (t.txq = q ∨ t.txq = q ++ [⟨0x0B, b0, b1, b2⟩])

/-- 30_encoding.md R72, 40_scan_debounce.md R73: a SCAN laid out in the script at channel 0 runs to its end, whatever
the knobs hold: the sixteen channels are sampled in order, every knob then holds its sample, and the producer stands
at channel 0 again. -/
def Obligations.ScanSamplesEveryChannelInOrder : Prop :=
  ∀ (s : State) (vals : Vector Sample 16) (now : Time),
    s.mode = .run → s.pPhase = .sample → s.scanCh = 0 → s.script = [] →
    ∃ t, Host.Core.run Sys2Proof.core ((TraceItem.scan vals now).lines s).length
        (s.withTrace (.scan vals now)) = .next t ∧
      t.script = [] ∧ t.mode = .run ∧ t.pPhase = .sample ∧ t.scanCh = 0 ∧
      ∀ c : Chan, (t.knob c).value = vals[c.toNat]

/-- 70_reset_and_hazards.md R158: in every infinite run that stays in `RUN`, under fairness F1, every channel is
sampled infinitely often. -/
def Obligations.EveryChannelIsSampledForever : Prop :=
  ∀ (r : Run) (n : Nat), r.Ok → r.StaysRunning n → r.F1 →
    ∀ (c : Chan) (m : Nat), ∃ k, m ≤ k ∧ (r.at_ k).scanCh = c ∧ ∃ raw now, r.op k = .sample raw now

/-- 70_reset_and_hazards.md R157: in every infinite run that stays in `RUN`, under F3 and F4, all that is queued at a
late enough time reaches the host, in order, after all that had reached it by then. -/
def Obligations.QueuedPacketsReachTheHost : Prop :=
  ∀ (r : Run) (n : Nat), r.Ok → r.StaysRunning n → r.F3 → r.F4 →
    ∃ k, ∀ m, k ≤ m → ∃ l, m ≤ l ∧ (r.at_ m).hostIn ++ (r.at_ m).txq <+: (r.at_ l).hostIn
end

