-- ==== Sys2Proof/Laws/State.lean ====
section
/-! SUPPORT. One lemma per field of State per update of Machine/Ops.lean, true by rfl, so that no later proof
unfolds a record update. -/

namespace Sys2Proof.Machine

variable (s : State)

/-! State.setKnob -/

@[simp] theorem setKnob_knobs (c : Chan) (k : Knob) : (s.setKnob c k).knobs = s.knobs.set c.toNat k := rfl
@[simp] theorem setKnob_chanMap (c : Chan) (k : Knob) : (s.setKnob c k).chanMap = s.chanMap := rfl
@[simp] theorem setKnob_scanCh (c : Chan) (k : Knob) : (s.setKnob c k).scanCh = s.scanCh := rfl
@[simp] theorem setKnob_pPhase (c : Chan) (k : Knob) : (s.setKnob c k).pPhase = s.pPhase := rfl
@[simp] theorem setKnob_pMsg (c : Chan) (k : Knob) : (s.setKnob c k).pMsg = s.pMsg := rfl
@[simp] theorem setKnob_txq (c : Chan) (k : Knob) : (s.setKnob c k).txq = s.txq := rfl
@[simp] theorem setKnob_usbPend (c : Chan) (k : Knob) : (s.setKnob c k).usbPend = s.usbPend := rfl
@[simp] theorem setKnob_irqEn (c : Chan) (k : Knob) : (s.setKnob c k).irqEn = s.irqEn := rfl
@[simp] theorem setKnob_mode (c : Chan) (k : Knob) : (s.setKnob c k).mode = s.mode := rfl
@[simp] theorem setKnob_fault (c : Chan) (k : Knob) : (s.setKnob c k).fault = s.fault := rfl
@[simp] theorem setKnob_serOut (c : Chan) (k : Knob) : (s.setKnob c k).serOut = s.serOut := rfl
@[simp] theorem setKnob_hostIn (c : Chan) (k : Knob) : (s.setKnob c k).hostIn = s.hostIn := rfl
@[simp] theorem setKnob_muxSel (c : Chan) (k : Knob) : (s.setKnob c k).muxSel = s.muxSel := rfl
@[simp] theorem setKnob_script (c : Chan) (k : Knob) : (s.setKnob c k).script = s.script := rfl
@[simp] theorem setKnob_tick (c : Chan) (k : Knob) : (s.setKnob c k).tick = s.tick := rfl
@[simp] theorem setKnob_fmtOut (c : Chan) (k : Knob) : (s.setKnob c k).fmtOut = s.fmtOut := rfl

/-! State.muxSelect -/

@[simp] theorem muxSelect_knobs (c : Chan) : (s.muxSelect c).knobs = s.knobs := rfl
@[simp] theorem muxSelect_chanMap (c : Chan) : (s.muxSelect c).chanMap = s.chanMap := rfl
@[simp] theorem muxSelect_scanCh (c : Chan) : (s.muxSelect c).scanCh = s.scanCh := rfl
@[simp] theorem muxSelect_pPhase (c : Chan) : (s.muxSelect c).pPhase = s.pPhase := rfl
@[simp] theorem muxSelect_pMsg (c : Chan) : (s.muxSelect c).pMsg = s.pMsg := rfl
@[simp] theorem muxSelect_txq (c : Chan) : (s.muxSelect c).txq = s.txq := rfl
@[simp] theorem muxSelect_usbPend (c : Chan) : (s.muxSelect c).usbPend = s.usbPend := rfl
@[simp] theorem muxSelect_irqEn (c : Chan) : (s.muxSelect c).irqEn = s.irqEn := rfl
@[simp] theorem muxSelect_mode (c : Chan) : (s.muxSelect c).mode = s.mode := rfl
@[simp] theorem muxSelect_fault (c : Chan) : (s.muxSelect c).fault = s.fault := rfl
@[simp] theorem muxSelect_serOut (c : Chan) : (s.muxSelect c).serOut = s.serOut := rfl
@[simp] theorem muxSelect_hostIn (c : Chan) : (s.muxSelect c).hostIn = s.hostIn := rfl
@[simp] theorem muxSelect_muxSel (c : Chan) : (s.muxSelect c).muxSel = c := rfl
@[simp] theorem muxSelect_script (c : Chan) : (s.muxSelect c).script = s.script := rfl
@[simp] theorem muxSelect_tick (c : Chan) : (s.muxSelect c).tick = s.tick := rfl
@[simp] theorem muxSelect_fmtOut (c : Chan) : (s.muxSelect c).fmtOut = s.fmtOut := rfl

/-! State.setMsg -/

@[simp] theorem setMsg_knobs (m : List Byte) : (s.setMsg m).knobs = s.knobs := rfl
@[simp] theorem setMsg_chanMap (m : List Byte) : (s.setMsg m).chanMap = s.chanMap := rfl
@[simp] theorem setMsg_scanCh (m : List Byte) : (s.setMsg m).scanCh = s.scanCh := rfl
@[simp] theorem setMsg_pPhase (m : List Byte) : (s.setMsg m).pPhase = s.pPhase := rfl
@[simp] theorem setMsg_pMsg (m : List Byte) : (s.setMsg m).pMsg = m := rfl
@[simp] theorem setMsg_txq (m : List Byte) : (s.setMsg m).txq = s.txq := rfl
@[simp] theorem setMsg_usbPend (m : List Byte) : (s.setMsg m).usbPend = s.usbPend := rfl
@[simp] theorem setMsg_irqEn (m : List Byte) : (s.setMsg m).irqEn = s.irqEn := rfl
@[simp] theorem setMsg_mode (m : List Byte) : (s.setMsg m).mode = s.mode := rfl
@[simp] theorem setMsg_fault (m : List Byte) : (s.setMsg m).fault = s.fault := rfl
@[simp] theorem setMsg_serOut (m : List Byte) : (s.setMsg m).serOut = s.serOut := rfl
@[simp] theorem setMsg_hostIn (m : List Byte) : (s.setMsg m).hostIn = s.hostIn := rfl
@[simp] theorem setMsg_muxSel (m : List Byte) : (s.setMsg m).muxSel = s.muxSel := rfl
@[simp] theorem setMsg_script (m : List Byte) : (s.setMsg m).script = s.script := rfl
@[simp] theorem setMsg_tick (m : List Byte) : (s.setMsg m).tick = s.tick := rfl
@[simp] theorem setMsg_fmtOut (m : List Byte) : (s.setMsg m).fmtOut = s.fmtOut := rfl

/-! State.setPhase -/

@[simp] theorem setPhase_knobs (p : Phase) : (s.setPhase p).knobs = s.knobs := rfl
@[simp] theorem setPhase_chanMap (p : Phase) : (s.setPhase p).chanMap = s.chanMap := rfl
@[simp] theorem setPhase_scanCh (p : Phase) : (s.setPhase p).scanCh = s.scanCh := rfl
@[simp] theorem setPhase_pPhase (p : Phase) : (s.setPhase p).pPhase = p := rfl
@[simp] theorem setPhase_pMsg (p : Phase) : (s.setPhase p).pMsg = s.pMsg := rfl
@[simp] theorem setPhase_txq (p : Phase) : (s.setPhase p).txq = s.txq := rfl
@[simp] theorem setPhase_usbPend (p : Phase) : (s.setPhase p).usbPend = s.usbPend := rfl
@[simp] theorem setPhase_irqEn (p : Phase) : (s.setPhase p).irqEn = s.irqEn := rfl
@[simp] theorem setPhase_mode (p : Phase) : (s.setPhase p).mode = s.mode := rfl
@[simp] theorem setPhase_fault (p : Phase) : (s.setPhase p).fault = s.fault := rfl
@[simp] theorem setPhase_serOut (p : Phase) : (s.setPhase p).serOut = s.serOut := rfl
@[simp] theorem setPhase_hostIn (p : Phase) : (s.setPhase p).hostIn = s.hostIn := rfl
@[simp] theorem setPhase_muxSel (p : Phase) : (s.setPhase p).muxSel = s.muxSel := rfl
@[simp] theorem setPhase_script (p : Phase) : (s.setPhase p).script = s.script := rfl
@[simp] theorem setPhase_tick (p : Phase) : (s.setPhase p).tick = s.tick := rfl
@[simp] theorem setPhase_fmtOut (p : Phase) : (s.setPhase p).fmtOut = s.fmtOut := rfl

/-! State.finishChannel -/

@[simp] theorem finishChannel_knobs : s.finishChannel.knobs = s.knobs := rfl
@[simp] theorem finishChannel_chanMap : s.finishChannel.chanMap = s.chanMap := rfl
@[simp] theorem finishChannel_scanCh : s.finishChannel.scanCh = s.scanCh + 1 := rfl
@[simp] theorem finishChannel_pPhase : s.finishChannel.pPhase = .sample := rfl
@[simp] theorem finishChannel_pMsg : s.finishChannel.pMsg = s.pMsg := rfl
@[simp] theorem finishChannel_txq : s.finishChannel.txq = s.txq := rfl
@[simp] theorem finishChannel_usbPend : s.finishChannel.usbPend = s.usbPend := rfl
@[simp] theorem finishChannel_irqEn : s.finishChannel.irqEn = s.irqEn := rfl
@[simp] theorem finishChannel_mode : s.finishChannel.mode = s.mode := rfl
@[simp] theorem finishChannel_fault : s.finishChannel.fault = s.fault := rfl
@[simp] theorem finishChannel_serOut : s.finishChannel.serOut = s.serOut := rfl
@[simp] theorem finishChannel_hostIn : s.finishChannel.hostIn = s.hostIn := rfl
@[simp] theorem finishChannel_muxSel : s.finishChannel.muxSel = s.muxSel := rfl
@[simp] theorem finishChannel_script : s.finishChannel.script = s.script := rfl
@[simp] theorem finishChannel_tick : s.finishChannel.tick = s.tick := rfl
@[simp] theorem finishChannel_fmtOut : s.finishChannel.fmtOut = s.fmtOut := rfl

/-! State.serialEmit -/

@[simp] theorem serialEmit_knobs (b : Byte) : (s.serialEmit b).knobs = s.knobs := rfl
@[simp] theorem serialEmit_chanMap (b : Byte) : (s.serialEmit b).chanMap = s.chanMap := rfl
@[simp] theorem serialEmit_scanCh (b : Byte) : (s.serialEmit b).scanCh = s.scanCh := rfl
@[simp] theorem serialEmit_pPhase (b : Byte) : (s.serialEmit b).pPhase = s.pPhase := rfl
@[simp] theorem serialEmit_pMsg (b : Byte) : (s.serialEmit b).pMsg = s.pMsg := rfl
@[simp] theorem serialEmit_txq (b : Byte) : (s.serialEmit b).txq = s.txq := rfl
@[simp] theorem serialEmit_usbPend (b : Byte) : (s.serialEmit b).usbPend = s.usbPend := rfl
@[simp] theorem serialEmit_irqEn (b : Byte) : (s.serialEmit b).irqEn = s.irqEn := rfl
@[simp] theorem serialEmit_mode (b : Byte) : (s.serialEmit b).mode = s.mode := rfl
@[simp] theorem serialEmit_fault (b : Byte) : (s.serialEmit b).fault = s.fault := rfl
@[simp] theorem serialEmit_serOut (b : Byte) : (s.serialEmit b).serOut = s.serOut ++ [b] := rfl
@[simp] theorem serialEmit_hostIn (b : Byte) : (s.serialEmit b).hostIn = s.hostIn := rfl
@[simp] theorem serialEmit_muxSel (b : Byte) : (s.serialEmit b).muxSel = s.muxSel := rfl
@[simp] theorem serialEmit_script (b : Byte) : (s.serialEmit b).script = s.script := rfl
@[simp] theorem serialEmit_tick (b : Byte) : (s.serialEmit b).tick = s.tick := rfl
@[simp] theorem serialEmit_fmtOut (b : Byte) : (s.serialEmit b).fmtOut = s.fmtOut := rfl

/-! State.fifoPush -/

@[simp] theorem fifoPush_knobs (p : Packet) : (s.fifoPush p).knobs = s.knobs := rfl
@[simp] theorem fifoPush_chanMap (p : Packet) : (s.fifoPush p).chanMap = s.chanMap := rfl
@[simp] theorem fifoPush_scanCh (p : Packet) : (s.fifoPush p).scanCh = s.scanCh := rfl
@[simp] theorem fifoPush_pPhase (p : Packet) : (s.fifoPush p).pPhase = s.pPhase := rfl
@[simp] theorem fifoPush_pMsg (p : Packet) : (s.fifoPush p).pMsg = s.pMsg := rfl
@[simp] theorem fifoPush_txq (p : Packet) : (s.fifoPush p).txq = s.txq ++ [p] := rfl
@[simp] theorem fifoPush_usbPend (p : Packet) : (s.fifoPush p).usbPend = s.usbPend := rfl
@[simp] theorem fifoPush_irqEn (p : Packet) : (s.fifoPush p).irqEn = s.irqEn := rfl
@[simp] theorem fifoPush_mode (p : Packet) : (s.fifoPush p).mode = s.mode := rfl
@[simp] theorem fifoPush_fault (p : Packet) : (s.fifoPush p).fault = s.fault := rfl
@[simp] theorem fifoPush_serOut (p : Packet) : (s.fifoPush p).serOut = s.serOut := rfl
@[simp] theorem fifoPush_hostIn (p : Packet) : (s.fifoPush p).hostIn = s.hostIn := rfl
@[simp] theorem fifoPush_muxSel (p : Packet) : (s.fifoPush p).muxSel = s.muxSel := rfl
@[simp] theorem fifoPush_script (p : Packet) : (s.fifoPush p).script = s.script := rfl
@[simp] theorem fifoPush_tick (p : Packet) : (s.fifoPush p).tick = s.tick := rfl
@[simp] theorem fifoPush_fmtOut (p : Packet) : (s.fifoPush p).fmtOut = s.fmtOut := rfl

/-! State.fifoDrop -/

@[simp] theorem fifoDrop_knobs : s.fifoDrop.knobs = s.knobs := rfl
@[simp] theorem fifoDrop_chanMap : s.fifoDrop.chanMap = s.chanMap := rfl
@[simp] theorem fifoDrop_scanCh : s.fifoDrop.scanCh = s.scanCh := rfl
@[simp] theorem fifoDrop_pPhase : s.fifoDrop.pPhase = s.pPhase := rfl
@[simp] theorem fifoDrop_pMsg : s.fifoDrop.pMsg = s.pMsg := rfl
@[simp] theorem fifoDrop_txq : s.fifoDrop.txq = s.txq.tail := rfl
@[simp] theorem fifoDrop_usbPend : s.fifoDrop.usbPend = s.usbPend := rfl
@[simp] theorem fifoDrop_irqEn : s.fifoDrop.irqEn = s.irqEn := rfl
@[simp] theorem fifoDrop_mode : s.fifoDrop.mode = s.mode := rfl
@[simp] theorem fifoDrop_fault : s.fifoDrop.fault = s.fault := rfl
@[simp] theorem fifoDrop_serOut : s.fifoDrop.serOut = s.serOut := rfl
@[simp] theorem fifoDrop_hostIn : s.fifoDrop.hostIn = s.hostIn := rfl
@[simp] theorem fifoDrop_muxSel : s.fifoDrop.muxSel = s.muxSel := rfl
@[simp] theorem fifoDrop_script : s.fifoDrop.script = s.script := rfl
@[simp] theorem fifoDrop_tick : s.fifoDrop.tick = s.tick := rfl
@[simp] theorem fifoDrop_fmtOut : s.fifoDrop.fmtOut = s.fmtOut := rfl

/-! State.hostDeliver -/

@[simp] theorem hostDeliver_knobs (p : Packet) : (s.hostDeliver p).knobs = s.knobs := rfl
@[simp] theorem hostDeliver_chanMap (p : Packet) : (s.hostDeliver p).chanMap = s.chanMap := rfl
@[simp] theorem hostDeliver_scanCh (p : Packet) : (s.hostDeliver p).scanCh = s.scanCh := rfl
@[simp] theorem hostDeliver_pPhase (p : Packet) : (s.hostDeliver p).pPhase = s.pPhase := rfl
@[simp] theorem hostDeliver_pMsg (p : Packet) : (s.hostDeliver p).pMsg = s.pMsg := rfl
@[simp] theorem hostDeliver_txq (p : Packet) : (s.hostDeliver p).txq = s.txq := rfl
@[simp] theorem hostDeliver_usbPend (p : Packet) : (s.hostDeliver p).usbPend = s.usbPend := rfl
@[simp] theorem hostDeliver_irqEn (p : Packet) : (s.hostDeliver p).irqEn = s.irqEn := rfl
@[simp] theorem hostDeliver_mode (p : Packet) : (s.hostDeliver p).mode = s.mode := rfl
@[simp] theorem hostDeliver_fault (p : Packet) : (s.hostDeliver p).fault = s.fault := rfl
@[simp] theorem hostDeliver_serOut (p : Packet) : (s.hostDeliver p).serOut = s.serOut := rfl
@[simp] theorem hostDeliver_hostIn (p : Packet) : (s.hostDeliver p).hostIn = s.hostIn ++ [p] := rfl
@[simp] theorem hostDeliver_muxSel (p : Packet) : (s.hostDeliver p).muxSel = s.muxSel := rfl
@[simp] theorem hostDeliver_script (p : Packet) : (s.hostDeliver p).script = s.script := rfl
@[simp] theorem hostDeliver_tick (p : Packet) : (s.hostDeliver p).tick = s.tick := rfl
@[simp] theorem hostDeliver_fmtOut (p : Packet) : (s.hostDeliver p).fmtOut = s.fmtOut := rfl

/-! State.setPend -/

@[simp] theorem setPend_knobs (b : Bool) : (s.setPend b).knobs = s.knobs := rfl
@[simp] theorem setPend_chanMap (b : Bool) : (s.setPend b).chanMap = s.chanMap := rfl
@[simp] theorem setPend_scanCh (b : Bool) : (s.setPend b).scanCh = s.scanCh := rfl
@[simp] theorem setPend_pPhase (b : Bool) : (s.setPend b).pPhase = s.pPhase := rfl
@[simp] theorem setPend_pMsg (b : Bool) : (s.setPend b).pMsg = s.pMsg := rfl
@[simp] theorem setPend_txq (b : Bool) : (s.setPend b).txq = s.txq := rfl
@[simp] theorem setPend_usbPend (b : Bool) : (s.setPend b).usbPend = b := rfl
@[simp] theorem setPend_irqEn (b : Bool) : (s.setPend b).irqEn = s.irqEn := rfl
@[simp] theorem setPend_mode (b : Bool) : (s.setPend b).mode = s.mode := rfl
@[simp] theorem setPend_fault (b : Bool) : (s.setPend b).fault = s.fault := rfl
@[simp] theorem setPend_serOut (b : Bool) : (s.setPend b).serOut = s.serOut := rfl
@[simp] theorem setPend_hostIn (b : Bool) : (s.setPend b).hostIn = s.hostIn := rfl
@[simp] theorem setPend_muxSel (b : Bool) : (s.setPend b).muxSel = s.muxSel := rfl
@[simp] theorem setPend_script (b : Bool) : (s.setPend b).script = s.script := rfl
@[simp] theorem setPend_tick (b : Bool) : (s.setPend b).tick = s.tick := rfl
@[simp] theorem setPend_fmtOut (b : Bool) : (s.setPend b).fmtOut = s.fmtOut := rfl

/-! State.enableIrq -/

@[simp] theorem enableIrq_knobs : s.enableIrq.knobs = s.knobs := rfl
@[simp] theorem enableIrq_chanMap : s.enableIrq.chanMap = s.chanMap := rfl
@[simp] theorem enableIrq_scanCh : s.enableIrq.scanCh = s.scanCh := rfl
@[simp] theorem enableIrq_pPhase : s.enableIrq.pPhase = s.pPhase := rfl
@[simp] theorem enableIrq_pMsg : s.enableIrq.pMsg = s.pMsg := rfl
@[simp] theorem enableIrq_txq : s.enableIrq.txq = s.txq := rfl
@[simp] theorem enableIrq_usbPend : s.enableIrq.usbPend = s.usbPend := rfl
@[simp] theorem enableIrq_irqEn : s.enableIrq.irqEn = true := rfl
@[simp] theorem enableIrq_mode : s.enableIrq.mode = s.mode := rfl
@[simp] theorem enableIrq_fault : s.enableIrq.fault = s.fault := rfl
@[simp] theorem enableIrq_serOut : s.enableIrq.serOut = s.serOut := rfl
@[simp] theorem enableIrq_hostIn : s.enableIrq.hostIn = s.hostIn := rfl
@[simp] theorem enableIrq_muxSel : s.enableIrq.muxSel = s.muxSel := rfl
@[simp] theorem enableIrq_script : s.enableIrq.script = s.script := rfl
@[simp] theorem enableIrq_tick : s.enableIrq.tick = s.tick := rfl
@[simp] theorem enableIrq_fmtOut : s.enableIrq.fmtOut = s.fmtOut := rfl

/-! State.setMode -/

@[simp] theorem setMode_knobs (m : Mode) : (s.setMode m).knobs = s.knobs := rfl
@[simp] theorem setMode_chanMap (m : Mode) : (s.setMode m).chanMap = s.chanMap := rfl
@[simp] theorem setMode_scanCh (m : Mode) : (s.setMode m).scanCh = s.scanCh := rfl
@[simp] theorem setMode_pPhase (m : Mode) : (s.setMode m).pPhase = s.pPhase := rfl
@[simp] theorem setMode_pMsg (m : Mode) : (s.setMode m).pMsg = s.pMsg := rfl
@[simp] theorem setMode_txq (m : Mode) : (s.setMode m).txq = s.txq := rfl
@[simp] theorem setMode_usbPend (m : Mode) : (s.setMode m).usbPend = s.usbPend := rfl
@[simp] theorem setMode_irqEn (m : Mode) : (s.setMode m).irqEn = s.irqEn := rfl
@[simp] theorem setMode_mode (m : Mode) : (s.setMode m).mode = m := rfl
@[simp] theorem setMode_fault (m : Mode) : (s.setMode m).fault = s.fault := rfl
@[simp] theorem setMode_serOut (m : Mode) : (s.setMode m).serOut = s.serOut := rfl
@[simp] theorem setMode_hostIn (m : Mode) : (s.setMode m).hostIn = s.hostIn := rfl
@[simp] theorem setMode_muxSel (m : Mode) : (s.setMode m).muxSel = s.muxSel := rfl
@[simp] theorem setMode_script (m : Mode) : (s.setMode m).script = s.script := rfl
@[simp] theorem setMode_tick (m : Mode) : (s.setMode m).tick = s.tick := rfl
@[simp] theorem setMode_fmtOut (m : Mode) : (s.setMode m).fmtOut = s.fmtOut := rfl

/-! State.setFmtOut -/

@[simp] theorem setFmtOut_knobs (r : Option (List Byte)) : (s.setFmtOut r).knobs = s.knobs := rfl
@[simp] theorem setFmtOut_chanMap (r : Option (List Byte)) : (s.setFmtOut r).chanMap = s.chanMap := rfl
@[simp] theorem setFmtOut_scanCh (r : Option (List Byte)) : (s.setFmtOut r).scanCh = s.scanCh := rfl
@[simp] theorem setFmtOut_pPhase (r : Option (List Byte)) : (s.setFmtOut r).pPhase = s.pPhase := rfl
@[simp] theorem setFmtOut_pMsg (r : Option (List Byte)) : (s.setFmtOut r).pMsg = s.pMsg := rfl
@[simp] theorem setFmtOut_txq (r : Option (List Byte)) : (s.setFmtOut r).txq = s.txq := rfl
@[simp] theorem setFmtOut_usbPend (r : Option (List Byte)) : (s.setFmtOut r).usbPend = s.usbPend := rfl
@[simp] theorem setFmtOut_irqEn (r : Option (List Byte)) : (s.setFmtOut r).irqEn = s.irqEn := rfl
@[simp] theorem setFmtOut_mode (r : Option (List Byte)) : (s.setFmtOut r).mode = s.mode := rfl
@[simp] theorem setFmtOut_fault (r : Option (List Byte)) : (s.setFmtOut r).fault = s.fault := rfl
@[simp] theorem setFmtOut_serOut (r : Option (List Byte)) : (s.setFmtOut r).serOut = s.serOut := rfl
@[simp] theorem setFmtOut_hostIn (r : Option (List Byte)) : (s.setFmtOut r).hostIn = s.hostIn := rfl
@[simp] theorem setFmtOut_muxSel (r : Option (List Byte)) : (s.setFmtOut r).muxSel = s.muxSel := rfl
@[simp] theorem setFmtOut_script (r : Option (List Byte)) : (s.setFmtOut r).script = s.script := rfl
@[simp] theorem setFmtOut_tick (r : Option (List Byte)) : (s.setFmtOut r).tick = s.tick := rfl
@[simp] theorem setFmtOut_fmtOut (r : Option (List Byte)) : (s.setFmtOut r).fmtOut = r := rfl

/-! raiseFault -/

@[simp] theorem raiseFault_knobs (code : FaultCode) : (raiseFault code s).knobs = s.knobs := rfl
@[simp] theorem raiseFault_chanMap (code : FaultCode) : (raiseFault code s).chanMap = s.chanMap := rfl
@[simp] theorem raiseFault_scanCh (code : FaultCode) : (raiseFault code s).scanCh = s.scanCh := rfl
@[simp] theorem raiseFault_pPhase (code : FaultCode) : (raiseFault code s).pPhase = s.pPhase := rfl
@[simp] theorem raiseFault_pMsg (code : FaultCode) : (raiseFault code s).pMsg = s.pMsg := rfl
@[simp] theorem raiseFault_txq (code : FaultCode) : (raiseFault code s).txq = s.txq := rfl
@[simp] theorem raiseFault_usbPend (code : FaultCode) : (raiseFault code s).usbPend = s.usbPend := rfl
@[simp] theorem raiseFault_irqEn (code : FaultCode) : (raiseFault code s).irqEn = s.irqEn := rfl
@[simp] theorem raiseFault_mode (code : FaultCode) : (raiseFault code s).mode = .halt := rfl
@[simp] theorem raiseFault_fault (code : FaultCode) : (raiseFault code s).fault = some code := rfl
@[simp] theorem raiseFault_serOut (code : FaultCode) : (raiseFault code s).serOut = s.serOut := rfl
@[simp] theorem raiseFault_hostIn (code : FaultCode) : (raiseFault code s).hostIn = s.hostIn := rfl
@[simp] theorem raiseFault_muxSel (code : FaultCode) : (raiseFault code s).muxSel = s.muxSel := rfl
@[simp] theorem raiseFault_script (code : FaultCode) : (raiseFault code s).script = s.script := rfl
@[simp] theorem raiseFault_tick (code : FaultCode) : (raiseFault code s).tick = s.tick := rfl
@[simp] theorem raiseFault_fmtOut (code : FaultCode) : (raiseFault code s).fmtOut = s.fmtOut := rfl

/-! resetBlock -/

@[simp] theorem resetBlock_knobs : (resetBlock s).knobs = Vector.replicate 16 Knob.reset := rfl
@[simp] theorem resetBlock_chanMap : (resetBlock s).chanMap = s.chanMap := rfl
@[simp] theorem resetBlock_scanCh : (resetBlock s).scanCh = 0 := rfl
@[simp] theorem resetBlock_pPhase : (resetBlock s).pPhase = .sample := rfl
@[simp] theorem resetBlock_pMsg : (resetBlock s).pMsg = s.pMsg := rfl
@[simp] theorem resetBlock_txq : (resetBlock s).txq = [] := rfl
@[simp] theorem resetBlock_usbPend : (resetBlock s).usbPend = false := rfl
@[simp] theorem resetBlock_irqEn : (resetBlock s).irqEn = false := rfl
@[simp] theorem resetBlock_mode : (resetBlock s).mode = .boot := rfl
@[simp] theorem resetBlock_fault : (resetBlock s).fault = none := rfl
@[simp] theorem resetBlock_serOut : (resetBlock s).serOut = s.serOut := rfl
@[simp] theorem resetBlock_hostIn : (resetBlock s).hostIn = s.hostIn := rfl
@[simp] theorem resetBlock_muxSel : (resetBlock s).muxSel = s.muxSel := rfl
@[simp] theorem resetBlock_script : (resetBlock s).script = s.script := rfl
@[simp] theorem resetBlock_tick : (resetBlock s).tick = s.tick := rfl
@[simp] theorem resetBlock_fmtOut : (resetBlock s).fmtOut = s.fmtOut := rfl

end Sys2Proof.Machine
end

