-- ==== Sys2Proof/Laws/Ops.lean ====
section
/-! SUPPORT. One lemma per shared operation that says everything it can do; later proofs cite these and do not
unfold the operation. -/

namespace Sys2Proof.Machine

/-! The knob file. -/

@[simp] theorem knob_setKnob_same (s : State) (c : Chan) (k : Knob) : (s.setKnob c k).knob c = k := by
  simp [State.knob, State.setKnob]

theorem knob_setKnob_other (s : State) {c d : Chan} (k : Knob) (h : d ≠ c) :
    (s.setKnob c k).knob d = s.knob d := by
  have hne : c.toNat ≠ d.toNat := fun e => h (BitVec.eq_of_toNat_eq e.symm)
  simp [State.knob, State.setKnob, hne]

theorem knob_congr {s t : State} (h : s.knobs = t.knobs) (c : Chan) : s.knob c = t.knob c := by
  simp [State.knob, h]

@[simp] theorem knob_muxSelect (s : State) (c d : Chan) : (s.muxSelect c).knob d = s.knob d := rfl

@[simp] theorem knob_resetBlock (s : State) (c : Chan) : (resetBlock s).knob c = Knob.reset := by
  simp [State.knob]

/-! Enabling. -/

theorem whenEnabled_next {op : OpName} {on : Bool} {u t : State} :
    whenEnabled op on u = .next t ↔ on = true ∧ u = t := by
  cases on <;> simp [whenEnabled]

@[simp] theorem whenEnabled_true (op : OpName) (u : State) : whenEnabled op true u = .next u := rfl

@[simp] theorem whenEnabled_false (op : OpName) (u : State) :
    whenEnabled op false u = .fault (.notEnabled op) := rfl

/-! The producer. -/

/-- Everything SERIAL's three writes do to a message of three bytes. -/
theorem serialMessage_three (a b c : Byte) (s : State) :
    serialMessage [a, b, c] s = { s with serOut := s.serOut ++ [a, b, c] } := by
  simp [serialMessage, msgByte, State.serialEmit]

/-- Everything SERIAL's three writes do to any message: three bytes are appended. -/
theorem serialMessage_any (m : List Byte) (s : State) :
    serialMessage m s = { s with serOut := s.serOut ++ [msgByte m 0, msgByte m 1, msgByte m 2] } := by
  simp [serialMessage, State.serialEmit]

theorem frame_three (a b c : Byte) : frame [a, b, c] = .ok ⟨usbHeader, a, b, c⟩ := rfl

theorem frame_error {m : List Byte} (h : m.length ≠ 3) : frame m = .error .pktSize := by
  unfold frame
  split
  · simp at h
  · rfl

theorem frame_ok {m : List Byte} {p : Packet} (h : frame m = .ok p) :
    ∃ a b c, m = [a, b, c] ∧ p = ⟨usbHeader, a, b, c⟩ := by
  unfold frame at h
  split at h
  · cases h; exact ⟨_, _, _, rfl, rfl⟩
  · cases h

/-- Everything the exclusive part of PUSH can do: append with room and `ok`, nothing otherwise. -/
theorem pushOrDrop_cases (depth : Nat) (ok : Bool) (p : Packet) (s : State) :
    (s.txq.length < depth ∧ ok = true ∧ pushOrDrop depth ok p s = s.fifoPush p) ∨
    (¬(s.txq.length < depth ∧ ok = true) ∧ pushOrDrop depth ok p s = s) := by
  unfold pushOrDrop
  by_cases h : s.txq.length < depth <;> cases ok <;> simp [h]

/-- Everything a SAMPLE step can do: no transition, a suppressed one, an emitted one. -/
theorem sampleStep_cases (v : Sample) (now : Time) (s : State) :
    (v = (s.knob s.scanCh).value ∧
      sampleStep v now s = (s.muxSelect s.scanCh).finishChannel) ∨
    (v ≠ (s.knob s.scanCh).value ∧
      shouldIgnore (s.knob s.scanCh).previous (s.knob s.scanCh).lastChangeMs v now = true ∧
      sampleStep v now s =
        ((s.muxSelect s.scanCh).setKnob s.scanCh ⟨v, (s.knob s.scanCh).value, now⟩).finishChannel) ∨
    (v ≠ (s.knob s.scanCh).value ∧
      shouldIgnore (s.knob s.scanCh).previous (s.knob s.scanCh).lastChangeMs v now = false ∧
      sampleStep v now s =
        (((s.muxSelect s.scanCh).setKnob s.scanCh ⟨v, (s.knob s.scanCh).value, now⟩).setMsg
          (encodeCc s.chanMap s.scanCh v)).setPhase .serial) := by
  by_cases h : v = (s.knob s.scanCh).value
  · exact .inl ⟨h, by simp [sampleStep, debounce, h]⟩
  · cases hi : shouldIgnore (s.knob s.scanCh).previous (s.knob s.scanCh).lastChangeMs v now
    · exact .inr (.inr ⟨h, rfl, by simp [sampleStep, debounce, h, hi, recordTransition]⟩)
    · exact .inr (.inl ⟨h, rfl, by simp [sampleStep, debounce, h, hi, recordTransition]⟩)

/-! The interrupt context. -/

@[simp] theorem discardInbound_eq (p : Packet) (s : State) : discardInbound p s = s := by
  unfold discardInbound
  split <;> rfl

theorem foldl_discardInbound (ps : List Packet) (s : State) :
    ps.foldl (fun t p => discardInbound p t) s = s := by
  induction ps with
  | nil => rfl
  | cons p ps ih => rw [List.foldl_cons, discardInbound_eq, ih]

@[simp] theorem servicePoll_eq (activity : Bool) (rx : List Byte) (s : State) :
    servicePoll activity rx s = s := by
  unfold servicePoll
  split
  · exact foldl_discardInbound _ _
  · rfl

/-! The bits of the encodings. -/

@[simp] theorem ccStatus_eq : ccStatus = 0xB0#8 := by decide

@[simp] theorem usbHeader_eq : usbHeader = 0x0B#8 := by decide

@[simp] theorem dataField_dataByte (v : BitVec 7) : dataField (dataByte v) = v := by
  revert v; decide

@[simp] theorem msb_dataByte (v : BitVec 7) : (dataByte v).msb = false := by
  revert v; decide

theorem toNat_dataByte (v : BitVec 7) : (dataByte v).toNat = v.toNat := by
  revert v; decide

/-- The controller number is the exact sum (00_scope.md R8). -/
theorem toNat_controllerOf (map : Vector Chan 16) (c : Chan) :
    (controllerOf map c).toNat = 101 + (mapEntry map c).toNat := by
  have h := (mapEntry map c).isLt
  simp only [controllerOf, Config.ccBase, BitVec.toNat_ofNat]
  omega

theorem mem_allChannels (c : Chan) : c ∈ allChannels := by
  revert c; decide

/-- The down-scale of the conversion that a trace's `s=v` stands for is `v`. -/
theorem downscale_rawOfSample (v : Sample) : downscale (rawOfSample v) = v := by
  have hn : 7 ≤ Config.adcBits := by unfold Config.adcBits; omega
  have hv : v.toNat < 2 ^ 7 := v.isLt
  have hp : 2 ^ Config.adcBits = 2 ^ 7 * 2 ^ (Config.adcBits - 7) := by
    rw [← Nat.pow_add]; congr 1; omega
  have h1 : v.toNat < 2 ^ Config.adcBits := lt_of_lt_of_le hv (Nat.pow_le_pow_right (by norm_num) hn)
  have h2 : v.toNat * 2 ^ (Config.adcBits - 7) < 2 ^ Config.adcBits := by
    rw [hp]; exact Nat.mul_lt_mul_of_pos_right hv (by positivity)
  apply BitVec.eq_of_toNat_eq
  simp only [downscale, downscaleFrom, rawOfSample, BitVec.toNat_setWidth, BitVec.toNat_ushiftRight,
    BitVec.toNat_shiftLeft, Nat.shiftLeft_eq, Nat.shiftRight_eq_div_pow]
  rw [Nat.mod_eq_of_lt h1, Nat.mod_eq_of_lt h2, Nat.mul_div_cancel _ (by positivity), Nat.mod_eq_of_lt hv]

/-! One step. -/

theorem step_script {s : State} {f : Fetch} {rest : List Fetch} {i : Instr} (hs : s.script = f :: rest)
    (hf : decode f = .ok i) : step s = exec i { s with script := rest } := by
  simp [step, hs, hf]

theorem step_free {s : State} (hs : s.script = []) :
    step s = exec (scheduled s) { s with tick := s.tick + 1 } := by
  simp [step, hs]

end Sys2Proof.Machine
end

