-- ==== Sys2Proof/Laws/Exec.lean ====
section
/-! SUPPORT. What one instruction and one run can do, said once: later proofs split on these and do not unfold
exec. -/

namespace Sys2Proof.Machine

/-- Everything an instruction that completes can have been, the condition it met and the state it gives. -/
theorem exec_next_cases {i : Instr} {s t : State} (h : exec i s = .next t) :
    (∃ r, isOperation i = false ∧ t = s.setFmtOut r) ∨
    (∃ raw now, i = .sample raw now ∧ sampleEnabled s = true ∧ t = sampleStep (downscale raw) now s) ∨
    (i = .serial ∧ serialEnabled s = true ∧ t = (serialMessage s.pMsg s).setPhase .push) ∨
    (∃ ok, i = .push ok ∧ pushEnabled s = true ∧ t = pushStep Config.usbTxDepth ok s) ∨
    (i = .idle ∧ idleEnabled s = true ∧ t = s) ∨
    (∃ k, i = .usbEvent k ∧ usbEventEnabled s = true ∧ t = s.setPend true) ∨
    (∃ a rx, i = .poll a rx ∧ pollEnabled s = true ∧ t = s.setPend false) ∨
    (∃ p rest, i = .hostTake true ∧ s.mode = .run ∧ s.txq = p :: rest ∧ t = s.fifoDrop.hostDeliver p) ∨
    (∃ p rest, i = .hostTake false ∧ s.mode = .run ∧ s.txq = p :: rest ∧ t = s.fifoDrop) ∨
    (i = .bootDone ∧ s.mode = .boot ∧ t = s.enableIrq.setMode .run) ∨
    (i = .bootFail ∧ s.mode = .boot ∧ t = raiseFault .initFail s) ∨
    (i = .reset ∧ t = resetBlock s) := by
  cases i with
  | ccMsg c v => cases h; exact .inl ⟨_, rfl, rfl⟩
  | usbMidiCcPkt c v => cases h; exact .inl ⟨_, rfl, rfl⟩
  | usbInSysex k i a b c =>
    simp [exec, execUsbInSysex] at h; subst h; exact .inl ⟨s.fmtOut, rfl, rfl⟩
  | usbInRegularLo k i a b c =>
    simp [exec, execUsbInRegularLo] at h; subst h; exact .inl ⟨s.fmtOut, rfl, rfl⟩
  | usbInRegularHi k i a b c =>
    simp [exec, execUsbInRegularHi] at h; subst h; exact .inl ⟨s.fmtOut, rfl, rfl⟩
  | sample raw now => simp [exec, execSample, whenEnabled_next] at h; simp [h]
  | serial => simp [exec, execSerial, whenEnabled_next] at h; simp [h]
  | push ok => simp [exec, execPush, whenEnabled_next] at h; simp [h]
  | idle =>
    simp [exec, execIdle, whenEnabled_next] at h
    exact .inr (.inr (.inr (.inr (.inl ⟨rfl, h.1, h.2.symm⟩))))
  | usbEvent k => cases k <;> simp [exec, execUsbEvent, whenEnabled_next] at h <;> simp [h]
  | poll a rx =>
    simp only [exec, execPoll] at h
    split at h
    · simp [whenEnabled_next, leavePoll, enterPoll] at h; simp [h]
    · cases h
  | hostTake d =>
    simp only [exec, execHostTake] at h
    split at h
    · cases h
    · rename_i p rest hq
      simp [whenEnabled_next, hostTakeEnabled] at h
      cases d <;> simp [takeStep] at h <;> simp [h, hq]
  | bootDone => simp [exec, execBootDone, whenEnabled_next, bootEnabled] at h; simp [h]
  | bootFail => simp [exec, execBootFail, whenEnabled_next, bootEnabled] at h; simp [h]
  | reset => cases h; simp

/-- The script is no part of what an instruction reads or writes. -/
theorem exec_script {i : Instr} {s t : State} (x : List Fetch) (h : exec i s = .next t) :
    exec i { s with script := x } = .next { t with script := x } := by
  cases i with
  | ccMsg c v => cases h; rfl
  | usbMidiCcPkt c v => cases h; rfl
  | usbInSysex k i a b c =>
    simp only [exec, execUsbInSysex, discardInbound_eq] at h ⊢
    cases h; rfl
  | usbInRegularLo k i a b c =>
    simp only [exec, execUsbInRegularLo, discardInbound_eq] at h ⊢
    cases h; rfl
  | usbInRegularHi k i a b c =>
    simp only [exec, execUsbInRegularHi, discardInbound_eq] at h ⊢
    cases h; rfl
  | sample raw now =>
    simp only [exec, execSample, whenEnabled_next] at h ⊢
    refine ⟨h.1, ?_⟩
    rw [← h.2]
    rcases sampleStep_cases (downscale raw) now s with ⟨a, e⟩ | ⟨a, b, e⟩ | ⟨a, b, e⟩ <;>
      rcases sampleStep_cases (downscale raw) now { s with script := x } with ⟨a', e'⟩ | ⟨a', b', e'⟩ | ⟨a', b', e'⟩ <;>
      first | (rw [e, e']; rfl) | exact absurd a' a | exact absurd a a' | exact absurd (b.symm.trans b') (by simp)
  | serial =>
    simp only [exec, execSerial, whenEnabled_next] at h ⊢
    exact ⟨h.1, by rw [← h.2]; rfl⟩
  | push ok =>
    simp only [exec, execPush, whenEnabled_next] at h ⊢
    refine ⟨h.1, ?_⟩
    rw [← h.2]
    simp only [pushStep]
    split
    · simp only [pushOrDrop]; split <;> rfl
    · rfl
  | idle =>
    simp only [exec, execIdle, whenEnabled_next] at h ⊢
    exact ⟨h.1, by rw [← h.2]⟩
  | usbEvent k =>
    cases k <;> simp only [exec, execUsbEvent, whenEnabled_next] at h ⊢ <;>
      exact ⟨h.1, by rw [← h.2]; rfl⟩
  | poll a rx =>
    simp only [exec, execPoll] at h ⊢
    split at h
    · rename_i hp
      simp only [hp, if_true, whenEnabled_next, servicePoll_eq] at h ⊢
      exact ⟨h.1, by rw [← h.2]; rfl⟩
    · cases h
  | hostTake d =>
    simp only [exec, execHostTake] at h ⊢
    split at h
    · cases h
    · rename_i p rest hq
      rw [whenEnabled_next] at h ⊢
      refine ⟨h.1, ?_⟩
      rw [← h.2]; cases d <;> rfl
  | bootDone =>
    simp only [exec, execBootDone, whenEnabled_next] at h ⊢
    exact ⟨h.1, by rw [← h.2]; rfl⟩
  | bootFail =>
    simp only [exec, execBootFail, whenEnabled_next] at h ⊢
    exact ⟨h.1, by rw [← h.2]; rfl⟩
  | reset => cases h; rfl

theorem runOps_append (xs ys : List Instr) (s : State) :
    runOps (xs ++ ys) s = match runOps xs s with
      | .next t => runOps ys t
      | .fault f => .fault f
      | .refused r => .refused r := by
  induction xs generalizing s with
  | nil => rfl
  | cons x xs ih => simp only [List.cons_append, runOps]; cases exec x s <;> simp [ih]

theorem runOps_cons_next {i : Instr} {is : List Instr} {s t : State} (h : runOps (i :: is) s = .next t) :
    ∃ u, exec i s = .next u ∧ runOps is u = .next t := by
  simp only [runOps] at h
  split at h
  · exact ⟨_, by assumption, h⟩
  · cases h
  · cases h

theorem runOps_cons_of_next {i : Instr} {is : List Instr} {s u : State} (h : exec i s = .next u) :
    runOps (i :: is) s = runOps is u := by
  simp [runOps, h]

end Sys2Proof.Machine
end

