-- ==== Sys2Proof/Laws/PerInstr.lean ====
section
/-! SUPPORT. Families of statements about every instruction as syntax, one lemma per constructor. -/

namespace Sys2Proof.Laws.WrittenForm

/-- Every format has a fixed length on its port and every operation is a trace line of its own name
(30_encoding.md R56, R69). -/
def Statement (i : Instr) : Prop :=
  match encode i with
  | .bytes .serTx bs => bs.length = 3 ∧ isOperation i = false
  | .bytes .usbIn bs => bs.length = 4 ∧ isOperation i = false
  | .bytes .usbOut bs => bs.length = 4 ∧ isOperation i = false
  | .line _ => isOperation i = true

theorem ccMsg (c v : BitVec 7) : Statement (.ccMsg c v) := ⟨rfl, rfl⟩
theorem usbMidiCcPkt (c v : BitVec 7) : Statement (.usbMidiCcPkt c v) := ⟨rfl, rfl⟩
theorem usbInSysex (k : BitVec 4) (i : BitVec 2) (a b c : Byte) : Statement (.usbInSysex k i a b c) := ⟨rfl, rfl⟩
theorem usbInRegularLo (k : BitVec 4) (i : BitVec 2) (a b c : Byte) : Statement (.usbInRegularLo k i a b c) :=
  ⟨rfl, rfl⟩
theorem usbInRegularHi (k : BitVec 4) (i : BitVec 3) (a b c : Byte) : Statement (.usbInRegularHi k i a b c) :=
  ⟨rfl, rfl⟩
theorem sample (raw : BitVec Config.adcBits) (now : Time) : Statement (.sample raw now) := rfl
theorem serial : Statement .serial := rfl
theorem push (ok : Bool) : Statement (.push ok) := rfl
theorem idle : Statement .idle := rfl
theorem usbEvent (kind : UsbKind) : Statement (.usbEvent kind) := rfl
theorem poll (activity : Bool) (rx : List Byte) : Statement (.poll activity rx) := rfl
theorem hostTake (deliver : Bool) : Statement (.hostTake deliver) := rfl
theorem bootDone : Statement .bootDone := rfl
theorem bootFail : Statement .bootFail := rfl
theorem reset : Statement .reset := rfl

end Sys2Proof.Laws.WrittenForm
end

