-- ==== Sys2Proof/Tests/Slice0.lean ====
section
/-! SUPPORT. Tests on fixed values, and one witness per obligation that its hypotheses can be met together.
Expected values are from spec/95_test_vectors.md, whose vector is named beside each, or worked by hand from the
rule named. -/

namespace Sys2Proof.Tests
open Sys2Proof Sys2Proof.Machine

/-! Well-formedness: each check refuses an ill-formed term. -/

theorem test_wf_cc_below : wellFormed (.ccMsg 100 0) = false := by decide
theorem test_wf_cc_above : wellFormed (.ccMsg 117 0) = false := by decide
theorem test_wf_cc_bounds : wellFormed (.ccMsg 101 0) = true ∧ wellFormed (.ccMsg 116 127) = true := by decide
theorem test_wf_pkt_below : wellFormed (.usbMidiCcPkt 100 0) = false := by decide
theorem test_wf_pkt_above : wellFormed (.usbMidiCcPkt 117 0) = false := by decide
theorem test_wf_poll_65 : wellFormed (.poll true (List.replicate 65 0)) = false := by decide
theorem test_wf_poll_64 : wellFormed (.poll true (List.replicate 64 0)) = true := by decide
theorem test_wf_poll_inactive : wellFormed (.poll false [0]) = false := by decide

/-! Decoding: one written word per constructor, from the encodings of 30_encoding.md and the trace lines of
R72. -/

theorem test_decode_cc_msg :
    decode (.bytes .serTx [0b10110000, 0b01100101, 0b01000000]) = .ok (.ccMsg 101 64) := by decide
theorem test_decode_pkt :
    decode (.bytes .usbIn [0b00001011, 0b10110000, 0b01110100, 0b01111111]) = .ok (.usbMidiCcPkt 116 127) := by
  decide
theorem test_decode_sysex :
    decode (.bytes .usbOut [0b00010110, 0xF0, 0x01, 0x02]) = .ok (.usbInSysex 1 2 0xF0 1 2) := by decide
theorem test_decode_regular_lo :
    decode (.bytes .usbOut [0b11110011, 0x00, 0x80, 0xFF]) = .ok (.usbInRegularLo 15 3 0 0x80 0xFF) := by decide
theorem test_decode_regular_hi :
    decode (.bytes .usbOut [0b00101101, 0x90, 0x3C, 0x7F]) = .ok (.usbInRegularHi 2 5 0x90 0x3C 0x7F) := by decide
theorem test_decode_sample_s :
    decode (.line ⟨.sample, [⟨.s, .num 64⟩, ⟨.now, .num 1000⟩]⟩) = .ok (.sample (rawOfSample 64) 1000) := rfl
theorem test_decode_sample_raw :
    decode (.line ⟨.sample, [⟨.raw, .num 2⟩, ⟨.now, .num 7⟩]⟩) = .ok (.sample (BitVec.ofNat _ 2) 7) := by
  have h : 2 < 2 ^ Config.adcBits :=
    lt_of_lt_of_le (by decide : 2 < 2 ^ 8) (Nat.pow_le_pow_right (by decide) (by unfold Config.adcBits; omega))
  simp [decode, decodeLine, sampleOfRaw, h, inRange]
theorem test_decode_serial : decode (.line ⟨.serial, []⟩) = .ok .serial := by decide
theorem test_decode_push : decode (.line ⟨.push, [⟨.ok, .num 0⟩]⟩) = .ok (.push false) := rfl
theorem test_decode_idle : decode (.line ⟨.idle, []⟩) = .ok .idle := by decide
theorem test_decode_usb_event :
    decode (.line ⟨.usbEvent, [⟨.kind, .line .comm⟩]⟩) = .ok (.usbEvent .comm) := by decide
theorem test_decode_poll :
    decode (.line ⟨.poll, [⟨.activity, .num 1⟩, ⟨.rx, .bytes [9, 144, 60, 127, 11]⟩]⟩) =
      .ok (.poll true [0x09, 0x90, 0x3C, 0x7F, 0x0B]) := by decide
theorem test_decode_host_take : decode (.line ⟨.hostTake, [⟨.deliver, .num 1⟩]⟩) = .ok (.hostTake true) := rfl
theorem test_decode_boot_done : decode (.line ⟨.bootDone, []⟩) = .ok .bootDone := by decide
theorem test_decode_boot_fail : decode (.line ⟨.bootFail, []⟩) = .ok .bootFail := by decide
theorem test_decode_reset : decode (.line ⟨.reset, []⟩) = .ok .reset := by decide

/-! Decoding refuses by name. -/

theorem test_decode_other_channel : decode (.bytes .serTx [0xB1, 101, 64]) = .error .notCcMsg := by decide
theorem test_decode_high_bit : decode (.bytes .usbIn [0x0B, 0xB0, 0xE5, 64]) = .error .notUsbPkt := by decide
theorem test_decode_length : decode (.bytes .usbOut [0x0B, 0xB0]) = .error (.wrongLength .usbOut 2) := by decide
theorem test_decode_byte_range :
    decode (.line ⟨.poll, [⟨.activity, .num 1⟩, ⟨.rx, .bytes [256]⟩]⟩) = .error (.outOfRange .poll) := by decide
theorem test_decode_args : decode (.line ⟨.push, []⟩) = .error (.badArgs .push) := by decide

/-! The words of spec/opcode_table.json. -/

theorem test_word_cc_msg : decodeTableWord 24 0xB06540 = some (.ccMsg 101 64) := by decide
theorem test_word_pkt : decodeTableWord 32 0x0BB06540 = some (.usbMidiCcPkt 101 64) := by decide
theorem test_word_sysex : decodeTableWord 32 0x04000000 = some (.usbInSysex 0 0 0 0 0) := by decide
theorem test_word_lo : decodeTableWord 32 0 = some (.usbInRegularLo 0 0 0 0 0) := by decide
theorem test_word_hi : decodeTableWord 32 0x08010203 = some (.usbInRegularHi 0 0 1 2 3) := by decide

/-! The pure functions. -/

/-- V-DS, `ADC_BITS` 8. -/
theorem test_downscale_8 : [0x00, 0x01, 0x02, 0xFF].map (fun r : BitVec 8 => downscaleFrom r) = [0, 0, 1, 127] := by
  decide
/-- V-DS, `ADC_BITS` 10. -/
theorem test_downscale_10 :
    [0, 7, 8, 512, 1023].map (fun r : BitVec 10 => downscaleFrom r) = [0, 0, 1, 64, 127] := by decide
/-- V-DS, `ADC_BITS` 12. -/
theorem test_downscale_12 :
    [31, 32, 2047, 2048, 2079, 2080, 4095].map (fun r : BitVec 12 => downscaleFrom r) =
      [0, 1, 63, 64, 64, 65, 127] := by decide

/-- V-DB 1 to 9. -/
theorem test_debounce_rule :
    debounce 0 0 0 0 5 = ⟨false, false⟩ ∧ debounce 0 0 0 64 1000 = ⟨true, true⟩ ∧
    debounce 64 0 1000 0 1050 = ⟨true, true⟩ ∧ debounce 64 0 1000 0 1051 = ⟨false, true⟩ ∧
    debounce 64 0 1000 0 1000 = ⟨true, true⟩ ∧ debounce 64 0 1000 65 5000 = ⟨true, true⟩ ∧
    debounce 64 0 1000 0 999 = ⟨true, true⟩ ∧ debounce 0 0 0 127 0 = ⟨true, true⟩ ∧
    debounce 64 0 1000 64 1000000 = ⟨false, false⟩ := by decide
/-- V-DB 10 to 14. -/
theorem test_debounce_return :
    debounce 0 64 1051 64 1101 = ⟨true, true⟩ ∧ debounce 0 64 1051 64 1102 = ⟨false, true⟩ ∧
    debounce 0 64 1051 0 1200 = ⟨false, false⟩ ∧ debounce 127 126 0 126 51 = ⟨false, true⟩ ∧
    debounce 127 126 0 126 50 = ⟨true, true⟩ := by decide
/-- V-DB 15 to 19. -/
theorem test_debounce_timer :
    debounce 64 0 0xFFFFFFCC 0 0xFFFFFFFF = ⟨false, true⟩ ∧ debounce 64 0 0xFFFFFFCD 0 0xFFFFFFFF = ⟨true, true⟩ ∧
    debounce 64 0 0xFFFFFFCE 0 0xFFFFFFFF = ⟨true, true⟩ ∧ debounce 64 0 0xFFFFFFF0 0 0x10 = ⟨true, true⟩ ∧
    debounce 64 0 0xFFFFFFF0 0 0x50 = ⟨true, true⟩ := by decide

/-- A map of the shape reading A of 95_test_vectors.md lists; it is not normative. -/
def readingA : Vector Chan 16 := #v[15, 14, 13, 12, 11, 10, 9, 8, 0, 1, 2, 3, 4, 5, 6, 7]

/-- V-EN. -/
theorem test_encode :
    encodeCc readingA 8 64 = [0xB0, 0x65, 0x40] ∧ encodeCc readingA 8 127 = [0xB0, 0x65, 0x7F] ∧
    encodeCc readingA 0 5 = [0xB0, 0x74, 0x05] ∧ encodeCc readingA 15 1 = [0xB0, 0x6C, 0x01] ∧
    encodeCc readingA 9 100 = [0xB0, 0x66, 0x64] := by decide
/-- V-FR. -/
theorem test_frame :
    (frame [0xB0, 0x65, 0x40]).toOption = some ⟨0x0B, 0xB0, 0x65, 0x40⟩ ∧
    (frame [0xB0, 0x65]).toOption = none := by decide
/-- V-PA, the lengths. -/
theorem test_parse :
    [0, 3, 4, 7, 8, 63, 64].map (fun n => (parse (List.replicate n 0)).length) = [0, 0, 1, 1, 2, 15, 16] := by decide
/-- V-PA, the classes. -/
theorem test_class :
    [0x04, 0x05, 0x07, 0x14, 0x03, 0x08, 0x0B, 0x0F].map (fun h : Byte => classOf ⟨h, 0, 0, 0⟩) =
      [.sysex, .sysex, .sysex, .sysex, .regular, .regular, .regular, .regular] := by decide

/-! States for the tests: the reset state with reading A's map, then booted, then with a message held. -/

def fresh : State := { State.reset with chanMap := readingA }
def running : State := { fresh with mode := .run, irqEn := true }
def halted : State := { fresh with mode := .halt, fault := some .initFail }
/-- Channel `c` holds `k` and is next. -/
def atKnob (c : Chan) (k : Knob) : State := { running with knobs := running.knobs.set c.toNat k, scanCh := c }
/-- Channel 8's first report, sampled (S1). -/
def holding (p : Phase) : State :=
  { atKnob 8 ⟨64, 0, 1000⟩ with pPhase := p, pMsg := [0xB0, 0x65, 0x40] }
def pktA : Packet := ⟨0x0B, 0xB0, 0x66, 1⟩
def pktB : Packet := ⟨0x0B, 0xB0, 0x67, 2⟩
def pktK : Packet := ⟨0x0B, 0xB0, 0x65, 0x40⟩

theorem usbTxDepth_pos : 0 < Config.usbTxDepth := by unfold Config.usbTxDepth; omega

/-! One step of each instruction. -/

/-- S1: the first report of channel 8. -/
theorem test_sample_first_report :
    let t := sampleStep 64 1000 (atKnob 8 ⟨0, 0, 0⟩)
    t.knob 8 = ⟨64, 0, 1000⟩ ∧ t.pMsg = [0xB0, 0x65, 0x40] ∧ t.pPhase = .serial ∧ t.scanCh = 8 ∧ t.muxSel = 8 := by
  decide
/-- S4 step c, on the last channel: suppressed, updated, and the scan wraps. -/
theorem test_sample_suppressed :
    let t := sampleStep 10 2060 (atKnob 15 ⟨20, 10, 2000⟩)
    t.knob 15 = ⟨10, 20, 2060⟩ ∧ t.pPhase = .sample ∧ t.scanCh = 0 ∧ t.pMsg = [0, 0, 0] := by decide
/-- S1: SERIAL. -/
theorem test_serial : exec .serial (holding .serial) =
    .next { holding .push with serOut := [0xB0, 0x65, 0x40] } := rfl
/-- V-PU, `USB_TX_DEPTH` 2, rows 1 to 5. -/
theorem test_push_queue :
    [([], true), ([pktA], true), ([pktA], false), ([pktA, pktB], true), ([pktA, pktB], false)].map
      (fun x => (pushStep 2 x.2 { holding .push with txq := x.1 }).txq) =
    [[pktK], [pktA, pktK], [pktA], [pktA, pktB], [pktA, pktB]] := by decide
/-- V-PU: the channel ends whether the message is queued or dropped, and 15 is followed by 0. -/
theorem test_push_channel :
    (pushStep 2 true (holding .push)).scanCh = 9 ∧ (pushStep 2 false (holding .push)).pPhase = .sample ∧
    (pushStep 2 false { holding .push with scanCh := 15 }).scanCh = 0 := by decide
/-- V-FR, last row: a payload of two bytes. -/
theorem test_push_pkt_size : exec (.push true) { holding .push with pMsg := [0xB0, 0x65] } =
    .next { holding .push with pMsg := [0xB0, 0x65], fault := some .pktSize, mode := .halt } := rfl
/-- V-ID. -/
theorem test_idle : exec .idle (holding .push) = .next (holding .push) := rfl
/-- V-IR 2 and 5. -/
theorem test_usb_event :
    exec (.usbEvent .comm) { running with usbPend := true } = .next { running with usbPend := true } ∧
    exec (.usbEvent .generic) fresh = .next { fresh with usbPend := true } := ⟨rfl, rfl⟩
/-- V-IR 7. -/
theorem test_usb_event_halt : exec (.usbEvent .generic) halted = .fault (.notEnabled .usbEvent) := rfl
/-- Program 3's read: one packet and one byte over, only `usb_pend` changes. -/
theorem test_poll : exec (.poll true [0x09, 0x90, 0x3C, 0x7F, 0x0B]) { holding .push with usbPend := true } =
    .next { holding .push with usbPend := false } := rfl
/-- V-IR 4 and 5. -/
theorem test_poll_not_enabled :
    exec (.poll false []) running = .fault (.notEnabled .poll) ∧
    exec (.poll false []) { fresh with usbPend := true } = .fault (.notEnabled .poll) := ⟨rfl, rfl⟩
/-- V-HT 1 and 2. -/
theorem test_host_take :
    exec (.hostTake true) { running with txq := [pktA, pktB] } =
      .next { running with txq := [pktB], hostIn := [pktA] } ∧
    exec (.hostTake false) { running with txq := [pktA, pktB] } = .next { running with txq := [pktB] } := ⟨rfl, rfl⟩
/-- V-HT 3. -/
theorem test_host_take_empty : exec (.hostTake true) running = .fault (.notEnabled .hostTake) := rfl
/-- V-RS 4 and V-IR 6. -/
theorem test_boot_done : exec .bootDone { fresh with usbPend := true } = .next { running with usbPend := true } := rfl
/-- V-RS 2. -/
theorem test_boot_fail : exec .bootFail fresh = .next halted := rfl
/-- V-RS 5: the queued packet is lost, the logs stay. -/
theorem test_reset :
    let t := resetBlock { holding .serial with txq := [pktA], serOut := [1], hostIn := [pktB] }
    t.txq = [] ∧ t.pPhase = .sample ∧ t.mode = .boot ∧ t.knob 8 = ⟨0, 0, 0⟩ ∧ t.serOut = [1] ∧ t.hostIn = [pktB] := by
  decide
/-- V-EN, as a row of the table; and an encoding the block never emits (R64). -/
theorem test_cc_msg_row :
    exec (.ccMsg 101 64) fresh = .next { fresh with fmtOut := some [0xB0, 0x65, 0x40] } ∧
    renderCc readingA 116 127 = some [0xB0, 0x74, 0x7F] ∧ renderCc readingA 100 64 = none ∧
    renderCc readingA 117 64 = none := ⟨rfl, rfl, rfl, rfl⟩
/-- V-FR, as a row of the table. -/
theorem test_pkt_row :
    exec (.usbMidiCcPkt 101 64) halted = .next { halted with fmtOut := some [0x0B, 0xB0, 0x65, 0x40] } := rfl
/-- 43_usb_poll.md R116: each inbound row is discarded. -/
theorem test_inbound_rows :
    exec (.usbInSysex 1 2 0xF0 1 2) running = .next running ∧
    exec (.usbInRegularLo 0 3 0 0 0) running = .next running ∧
    exec (.usbInRegularHi 0 1 0x90 0x3C 0x7F) running = .next running := ⟨rfl, rfl, rfl⟩

/-- The table word placed for the first step after reset is what the step runs. -/
theorem test_fetch_word : step (State.reset.withFetchWord 32 0x09903C7F) = .next State.reset := rfl

/-- R72: `EMIT_SEND` and a count expand to their lines. -/
theorem test_trace_expansion :
    (TraceItem.counted 2 ⟨.idle, []⟩).lines running = [⟨.idle, []⟩, ⟨.idle, []⟩] ∧
    (TraceItem.emitSend true).lines running = [⟨.serial, []⟩, ⟨.push, [⟨.ok, .num 1⟩]⟩] := by decide

/-! Witnesses: the hypotheses of each obligation met together by a concrete state. -/

theorem readingA_ok : MapOk readingA := by unfold MapOk; decide

/-- SAMPLE of a value, at any state where it is enabled. -/
theorem sample_completes (v : Sample) (now : Time) (s : State) (h : sampleEnabled s = true) :
    exec (.sample (rawOfSample v) now) s = .next (sampleStep v now s) := by
  simp [exec, execSample, downscale_rawOfSample, h]

theorem knob_fresh (c : Chan) : fresh.knob c = ⟨0, 0, 0⟩ := by simp [fresh, State.reset, State.knob, Knob.reset,
  Config.knobResetValue]

theorem inv_fresh : Inv fresh where
  map := readingA_ok
  knobs c := by rw [knob_fresh]; exact .inl ⟨rfl, rfl⟩
  occupancy := Nat.zero_le _
  msgSize := rfl
  msg h := absurd rfl h
  queued _ h := absurd h (by simp [fresh, State.reset])
  delivered _ h := absurd h (by simp [fresh, State.reset])
  serial := trivial
  boot _ := ⟨rfl, rfl, rfl, rfl, rfl⟩
  run h := absurd h (by decide)
  halt h := absurd h (by decide)

/-- The invariant of a state with a packet queued, one delivered, a message written and one held. -/
theorem inv_holding : Inv { holding .push with txq := [pktK], hostIn := [pktA], serOut := [0xB0, 0x65, 0x40] } where
  map := readingA_ok
  knobs := by unfold KnobOk; decide
  occupancy := usbTxDepth_pos
  msgSize := rfl
  msg _ := by decide
  queued p h := by
    have : p = pktK := by simpa using h
    subst this; unfold IsBlockPacket IsBlockMessage; decide
  delivered p h := by
    have : p = pktA := by simpa using h
    subst this; unfold IsBlockPacket IsBlockMessage; decide
  serial := by unfold IsBlockStream IsBlockStream IsBlockMessage; decide
  boot h := absurd h (by decide)
  run _ := ⟨rfl, rfl⟩
  halt h := absurd h (by decide)

theorem witness_ResetRestoresTheBlock : halted.mode = .halt ∧ isOperation .reset = true ∧
    exec .reset halted = .next (resetBlock halted) := ⟨rfl, rfl, rfl⟩
theorem witness_ResetKeepsTheRest : exec .reset (holding .push) = .next (resetBlock (holding .push)) := rfl
theorem witness_ResetValuesAreThoseListed : exec .reset (holding .push) = .next (resetBlock (holding .push)) ∧
    State.reset = State.reset := ⟨rfl, rfl⟩
theorem witness_BootDoneStartsRunning : fresh.mode = .boot ∧ running.mode ≠ .boot ∧ Inv fresh ∧
    exec .bootDone fresh = .next running := ⟨rfl, by decide, inv_fresh, rfl⟩
theorem witness_BootFailHaltsTheBlock : fresh.mode = .boot ∧ running.mode ≠ .boot ∧
    exec .bootFail fresh = .next halted ∧ isOperation .reset = true ∧
    exec .reset halted = .next (resetBlock halted) := ⟨rfl, by decide, rfl, rfl, rfl⟩
theorem witness_FaultsAreStickyUntilReset : halted.mode = .halt ∧ isOperation .idle = true ∧
    wellFormed .idle = true ∧ Instr.idle ≠ .reset ∧ exec .reset halted = .next (resetBlock halted) :=
  ⟨rfl, rfl, rfl, by decide, rfl⟩

/-- No transition; an emitted one by a new value; an emitted return 50 ms after; and a state that does not
sample. -/
theorem witness_SampleFollowsTheDebounceRule :
    let s := atKnob 8 ⟨64, 0, 1000⟩
    s.mode = .run ∧ s.pPhase = .sample ∧ downscale (rawOfSample 64) = (s.knob s.scanCh).value ∧
    downscale (rawOfSample 65) ≠ (s.knob s.scanCh).value ∧ downscale (rawOfSample 65) ≠ (s.knob s.scanCh).previous ∧
    downscale (rawOfSample 0) ≠ (s.knob s.scanCh).value ∧
      (1050 : Time).toNat ≤ (s.knob s.scanCh).lastChangeMs.toNat + 50 ∧
    ¬((holding .push).mode = .run ∧ (holding .push).pPhase = .sample) := by
  simp only [downscale_rawOfSample]; decide
/-- A suppressed return, 51 ms after. -/
theorem witness_SampleFollowsTheDebounceRule_suppressed :
    let s := atKnob 8 ⟨64, 0, 1000⟩
    s.mode = .run ∧ s.pPhase = .sample ∧ downscale (rawOfSample 0) ≠ (s.knob s.scanCh).value ∧
    downscale (rawOfSample 0) = (s.knob s.scanCh).previous ∧
      (s.knob s.scanCh).lastChangeMs.toNat + 50 < (1051 : Time).toNat := by
  simp only [downscale_rawOfSample]; decide
theorem witness_SampleTouchesOneKnob : ∃ t, exec (.sample (rawOfSample 64) 1000) (atKnob 8 ⟨0, 0, 0⟩) = .next t ∧
    (7 : Chan) ≠ (atKnob 8 ⟨0, 0, 0⟩).scanCh := ⟨_, sample_completes _ _ _ rfl, by decide⟩
theorem witness_SuppressionNeverChangesTheUpdate :
    let s := atKnob 8 ⟨64, 0, 1000⟩
    (∃ t, exec (.sample (rawOfSample 0) 1051) s = .next t) ∧
    downscale (rawOfSample 0) ≠ (s.knob s.scanCh).value :=
  ⟨⟨_, sample_completes _ _ _ rfl⟩, by rw [downscale_rawOfSample]; decide⟩
theorem witness_DebounceClosedForm :
    (0 : Sample) ≠ 64 ∧ (1000 : Time).toNat ≤ (1050 : Time).toNat ∧ (1050 : Time).toNat - (1000 : Time).toNat ≤ 50 ∧
    (1000 : Time).toNat ≤ (1051 : Time).toNat ∧ 51 ≤ (1051 : Time).toNat - (1000 : Time).toNat ∧
    (999 : Time).toNat < (1000 : Time).toNat := by decide
theorem witness_GateSumNeverWraps :
    (0 : Sample) ≠ 64 ∧ 2 ^ 32 - 50 ≤ (0xFFFFFFCE : Time).toNat := by decide
theorem witness_FirstTransitionIgnoresTheTime : (64 : Sample) ≠ 0 := by decide
theorem witness_DownscaleIsMonotonic :
    (0 : BitVec Config.adcBits).toNat ≤ (BitVec.allOnes Config.adcBits).toNat := by simp
theorem witness_SerialWritesTheMessage : (holding .serial).mode = .run ∧ (holding .serial).pPhase = .serial ∧
    (holding .serial).pMsg = [0xB0, 0x65, 0x40] ∧ ¬(running.mode = .run ∧ running.pPhase = .serial) := by decide
theorem witness_SerialCompletesOnAnyMessage : (holding .serial).mode = .run ∧ (holding .serial).pPhase = .serial :=
  ⟨rfl, rfl⟩
theorem witness_PushQueuesOrDrops :
    (holding .push).mode = .run ∧ (holding .push).pPhase = .push ∧ (holding .push).pMsg = [0xB0, 0x65, 0x40] ∧
    (holding .push).txq.length < Config.usbTxDepth ∧
    Config.usbTxDepth ≤ ({ holding .push with txq := List.replicate Config.usbTxDepth pktA } : State).txq.length ∧
    ¬(running.mode = .run ∧ running.pPhase = .push) :=
  ⟨rfl, rfl, rfl, usbTxDepth_pos, by simp, by decide⟩
theorem witness_PushQueuesOrDrops_pkt_size :
    let s : State := { holding .push with pMsg := [0xB0, 0x65] }
    s.mode = .run ∧ s.pPhase = .push ∧ s.pMsg.length ≠ 3 := by decide
theorem witness_IdleChangesNothing : running.mode = .run ∧ halted.mode ≠ .run := by decide
theorem witness_OneChannelTakesOneTurn : running.mode = .run ∧ running.pPhase = .sample ∧
    emitsAt running running.scanCh (downscale (rawOfSample 64)) 1000 = true := by
  rw [downscale_rawOfSample]; decide
theorem witness_ControllerNumbersAreABijection : MapOk readingA ∧ 101 ≤ 101 ∧ 116 ≤ 116 :=
  ⟨readingA_ok, by decide⟩
theorem witness_ChannelEightIsController101 : Reachable State.reset := .powerOn
theorem witness_PacketsMatchTheirPattern : ([0xB0, 0x65] : List Byte).length ≠ 3 := by decide
theorem witness_CcMsgRowRendersEmittedMessages : MapOk fresh.chanMap := readingA_ok
theorem witness_UsbPktRowRendersFramedMessages : MapOk halted.chanMap := readingA_ok
theorem witness_DecodeOfEncodeIsTheInstruction : wellFormed (.ccMsg 116 127) = true ∧
    wellFormed (.poll true (List.replicate 64 255)) = true := by decide
theorem witness_UsbEventSetsPending : fresh.mode = .boot ∧ running.mode = .run ∧ halted.mode = .halt := by decide
/-- The largest read, and the empty one without activity. -/
theorem witness_PollWritesOnlyPending :
    let s : State := { running with usbPend := true }
    (List.replicate 64 (0 : Byte)).length ≤ 64 ∧ (true = false → List.replicate 64 (0 : Byte) = []) ∧
    ([] : List Byte).length ≤ 64 ∧ s.mode = .run ∧ s.irqEn = true ∧ s.usbPend = true ∧
    ¬(running.mode = .run ∧ running.irqEn = true ∧ running.usbPend = true) := by decide
theorem witness_PollRefusesOtherReads : 64 < (List.replicate 65 (0 : Byte)).length ∧
    ([0] : List Byte) ≠ [] := by decide
theorem witness_OnePollServesAllEvents : [UsbKind.generic, UsbKind.comm] ≠ [] ∧ running.mode = .run ∧
    running.irqEn = true ∧ (List.replicate 64 (0 : Byte)).length ≤ 64 ∧
    (true = false → List.replicate 64 (0 : Byte) = []) := by decide
theorem witness_HostTakeMovesTheHead :
    let s : State := { running with txq := [pktA, pktB] }
    s.mode = .run ∧ s.txq = pktA :: [pktB] ∧ running.txq = [] ∧ fresh.mode ≠ .run := by decide
/-- A push that lengthens the queue. -/
theorem witness_QueueLengthChangesByOne_push :
    ∃ t, exec (.push true) (holding .push) = .next t ∧ (holding .push).txq.length ≤ Config.usbTxDepth ∧
      (holding .push).txq.length < t.txq.length := by
  have h : pushStep Config.usbTxDepth true (holding .push) =
      ((holding .push).fifoPush pktK).finishChannel := by
    rcases pushOrDrop_cases Config.usbTxDepth true pktK (holding .push) with ⟨_, _, e⟩ | ⟨h, _⟩
    · show (pushOrDrop Config.usbTxDepth true pktK (holding .push)).finishChannel = _
      rw [e]
    · exact absurd ⟨usbTxDepth_pos, rfl⟩ h
  exact ⟨pushStep Config.usbTxDepth true (holding .push), rfl, Nat.zero_le _, by rw [h]; decide⟩
/-- A take and a RESET that shorten it. -/
theorem witness_QueueLengthChangesByOne_shorter :
    let s : State := { running with txq := [pktA, pktB] }
    (∃ t, exec (.hostTake true) s = .next t ∧ t.txq.length < s.txq.length) ∧
    (∃ t, exec .reset s = .next t ∧ t.txq.length < s.txq.length) := ⟨⟨_, rfl, by decide⟩, ⟨_, rfl, by decide⟩⟩
theorem witness_OperationsStepExactlyWhereEnabled : presentableRead true (List.replicate 64 0) = true ∧
    presentableRead false [] = true ∧ isProducerWork .serial = true ∧
    exec .serial (holding .serial) = .next { holding .push with serOut := [0xB0, 0x65, 0x40] } :=
  ⟨by decide, by decide, rfl, rfl⟩
/-- SAMPLE changes the knob file, the phase, the message and the level of `mux_sel`. -/
theorem witness_EachOperationWritesOnlyItsState_sample :
    ∃ t, exec (.sample (rawOfSample 64) 1000) (atKnob 8 ⟨0, 0, 0⟩) = .next t ∧
      t.knobs ≠ (atKnob 8 ⟨0, 0, 0⟩).knobs ∧ t.pPhase ≠ (atKnob 8 ⟨0, 0, 0⟩).pPhase ∧
      t.pMsg ≠ (atKnob 8 ⟨0, 0, 0⟩).pMsg ∧ t.muxSel ≠ (atKnob 8 ⟨0, 0, 0⟩).muxSel := ⟨_, sample_completes _ _ _ rfl, by decide⟩
/-- SAMPLE without an emission changes the scan position; HOST_TAKE the queue and `host_in`; SERIAL `ser_out`; USB_EVENT `usb_pend`;
BOOT_DONE `irq_en` and `mode`; RESET `fault`; CC_MSG the rendered bytes. -/
theorem witness_EachOperationWritesOnlyItsState_rest :
    (∃ t, exec (.sample (rawOfSample 0) 5) running = .next t ∧ t.scanCh ≠ running.scanCh) ∧
    (∃ t, exec (.hostTake true) { running with txq := [pktA] } = .next t ∧ t.txq ≠ [pktA] ∧ t.hostIn ≠ []) ∧
    (∃ t, exec .serial (holding .serial) = .next t ∧ t.serOut ≠ (holding .serial).serOut) ∧
    (∃ t, exec (.usbEvent .comm) running = .next t ∧ t.usbPend ≠ running.usbPend) ∧
    (∃ t, exec .bootDone fresh = .next t ∧ t.irqEn ≠ fresh.irqEn ∧ t.mode ≠ fresh.mode) ∧
    (∃ t, exec .reset halted = .next t ∧ t.fault ≠ halted.fault) ∧
    (∃ t, exec (.ccMsg 101 64) fresh = .next t ∧ t.fmtOut ≠ fresh.fmtOut) :=
  ⟨⟨_, sample_completes _ _ _ rfl, by decide⟩, ⟨_, rfl, by decide⟩, ⟨_, rfl, by decide⟩, ⟨_, rfl, by decide⟩,
    ⟨_, rfl, by decide⟩, ⟨_, rfl, by decide⟩, ⟨_, rfl, by decide⟩⟩
/-- POLL and RESET change `usb_pend` too. -/
theorem witness_EachOperationWritesOnlyItsState_pend :
    let s : State := { running with usbPend := true }
    (∃ t, exec (.poll false []) s = .next t ∧ t.usbPend ≠ s.usbPend) ∧
    (∃ t, exec .reset s = .next t ∧ t.usbPend ≠ s.usbPend) := ⟨⟨_, rfl, by decide⟩, ⟨_, rfl, by decide⟩⟩
theorem witness_StepRunsTheDecodedInstruction :
    ({ running with script := [.line ⟨.idle, []⟩] } : State).script = .line ⟨.idle, []⟩ :: [] ∧
    decode (.line ⟨.idle, []⟩) = .ok .idle ∧ decode (.line ⟨.push, []⟩) = .error (.badArgs .push) ∧
    running.script = [] ∧ decodeTableWord 24 0xB06540 = some (.ccMsg 101 64) := by decide
theorem witness_FreeScheduleTakesAnEnabledOperation : running.script = [] := rfl
theorem witness_StepKeepsTheInvariant :
    Inv { fresh with script := [.line ⟨.bootDone, []⟩] } ∧
    step { fresh with script := [.line ⟨.bootDone, []⟩] } = .next running :=
  ⟨⟨inv_fresh.map, inv_fresh.knobs, inv_fresh.occupancy, inv_fresh.msgSize, inv_fresh.msg, inv_fresh.queued,
    inv_fresh.delivered, inv_fresh.serial, inv_fresh.boot, inv_fresh.run, inv_fresh.halt⟩, rfl⟩
/-- A reachable state that holds a message. -/
theorem witness_PktSizeIsUnreachable : ∃ s, Reachable s ∧ s.pPhase ≠ .sample := by
  let b : State := State.reset.enableIrq.setMode .run
  have hb : Reachable b := .step .bootDone rfl .powerOn rfl
  refine ⟨sampleStep 64 1000 b, .step _ rfl hb (sample_completes 64 1000 b rfl), ?_⟩
  decide
theorem witness_OutputsAreAppendOnly :
    ∃ t, runOps [.serial, .idle] (holding .serial) = .next t := ⟨_, rfl⟩
theorem witness_UsbPacketsKeepTheirOrder :
    ∃ t, runOps [.hostTake false, .hostTake true] { running with txq := [pktA, pktB] } = .next t ∧
      t.hostIn = [pktB] := ⟨_, rfl, rfl⟩
theorem witness_SerialStreamIsTheEmittedMessages :
    Instr.reset ∉ [.sample (rawOfSample 64) 1000, .serial] ∧
    ((atKnob 8 ⟨0, 0, 0⟩).pPhase = .serial → (atKnob 8 ⟨0, 0, 0⟩).pMsg.length = 3) ∧
    ∃ t, runOps [.sample (rawOfSample 64) 1000, .serial] (atKnob 8 ⟨0, 0, 0⟩) = .next t := by
  refine ⟨by simp, by decide, (serialMessage (sampleStep 64 1000 (atKnob 8 ⟨0, 0, 0⟩)).pMsg
    (sampleStep 64 1000 (atKnob 8 ⟨0, 0, 0⟩))).setPhase .push, ?_⟩
  rw [runOps_cons_of_next (sample_completes 64 1000 _ rfl)]
  have h : serialEnabled (sampleStep 64 1000 (atKnob 8 ⟨0, 0, 0⟩)) = true := by decide
  simp only [runOps, exec, execSerial, h, whenEnabled_true]
/-- Two runs that differ on the USB side and in the outcome of a push. -/
theorem witness_UsbSideNeverReachesTheProducer :
    let s' : State := { holding .serial with txq := [pktA] }
    [Instr.serial, .push true].filterMap producerAct =
      [Instr.hostTake true, .serial, .idle, .push false].filterMap producerAct ∧
    SameProducer (holding .serial) s' ∧ (∃ t, runOps [.serial, .push true] (holding .serial) = .next t) ∧
    ∃ t', runOps [.hostTake true, .serial, .idle, .push false] s' = .next t' :=
  ⟨by decide, ⟨rfl, rfl, rfl, rfl, rfl, rfl, rfl⟩, ⟨_, rfl⟩, ⟨_, rfl⟩⟩
theorem witness_BothTransportsCarryTheSameBytes :
    (∀ i ∈ [Instr.usbEvent .comm, .idle], isUsbSide i = true ∨ i = .idle) ∧ (holding .serial).pPhase = .serial ∧
    (holding .serial).pMsg = [0xB0, 0x65, 0x40] ∧
    ∃ t, runOps ([.serial] ++ [.usbEvent .comm, .idle] ++ [.push true]) (holding .serial) = .next t :=
  ⟨by decide, rfl, rfl, ⟨_, rfl⟩⟩
theorem witness_ScanSamplesEveryChannelInOrder :
    running.mode = .run ∧ running.pPhase = .sample ∧ running.scanCh = 0 ∧ running.script = [] := by decide

/-- A run that samples zeros for ever. -/
def zeros : Run where
  op _ := .sample (rawOfSample 0) 5
  at_ n := { running with scanCh := BitVec.ofNat 4 n, muxSel := BitVec.ofNat 4 (n + 15) }

theorem witness_EveryChannelIsSampledForever : zeros.Ok ∧ zeros.StaysRunning 0 ∧ zeros.F1 := by
  refine ⟨fun n => ⟨rfl, ?_⟩, fun _ _ => rfl, fun _ _ m _ => ⟨m, le_rfl, rfl⟩⟩
  rw [show zeros.op n = .sample (rawOfSample 0) 5 from rfl, sample_completes 0 5 _ rfl]
  have hk : ∀ c, (zeros.at_ n).knob c = ⟨0, 0, 0⟩ := knob_fresh
  rcases sampleStep_cases 0 5 (zeros.at_ n) with ⟨_, e⟩ | ⟨h, _⟩ | ⟨h, _⟩
  · rw [e]
    have h1 : BitVec.ofNat 4 (n + 1 + 15) = BitVec.ofNat 4 n :=
      BitVec.eq_of_toNat_eq (by simp only [BitVec.toNat_ofNat]; omega)
    have h2 : BitVec.ofNat 4 (n + 1) = BitVec.ofNat 4 n + 1 := by rw [BitVec.ofNat_add]; rfl
    simp only [zeros, State.finishChannel, State.muxSelect, h1, h2]
    rfl
  · exact absurd (by rw [hk]) h
  · exact absurd (by rw [hk]) h

/-- A run that delivers one packet and then waits for ever. -/
def oneTake : Run where
  op n := if n = 0 then .hostTake true else .idle
  at_ n := if n = 0 then { running with txq := [pktA] } else { running with hostIn := [pktA] }

theorem witness_QueuedPacketsReachTheHost : oneTake.Ok ∧ oneTake.StaysRunning 0 ∧ oneTake.F3 ∧ oneTake.F4 := by
  refine ⟨fun n => ?_, fun m _ => ?_, fun n h => absurd ?_ (h (n + 1) (Nat.le_succ n)), 0, fun m _ => ?_⟩
  · cases n with
    | zero => exact ⟨rfl, rfl⟩
    | succ n => exact ⟨rfl, rfl⟩
  · cases m <;> rfl
  · rfl
  · cases m with
    | zero => show Instr.hostTake true ≠ _; simp
    | succ m => show Instr.idle ≠ _; simp

end Sys2Proof.Tests
end

section
/-! The reset values of 10_state.md R34.  Power-on is itself a state RESET leaves as it is, so one table, that of
`resetBlock`, serves both. -/

namespace Sys2Proof.Machine

/-- A knob at reset holds what R34 lists. -/
theorem knob_reset_eq : Knob.reset = ⟨0, 0, 0⟩ := by
  simp [Knob.reset, Config.knobResetValue]

/-- RESET is enabled in every mode and has one outcome (70_reset_and_hazards.md R141). -/
theorem exec_reset (s : State) : exec .reset s = .next (resetBlock s) := rfl

theorem exec_reset_next {s t : State} : exec .reset s = .next t ↔ t = resetBlock s := by
  rw [exec_reset, Host.Outcome.next.injEq, eq_comm]

/-- RESET at power-on changes nothing. -/
theorem resetBlock_powerOn : resetBlock State.reset = State.reset := rfl

/-- The states R34 speaks of are the values of `resetBlock`. -/
theorem powerOn_or_exec_reset_iff {t : State} :
    (t = State.reset ∨ ∃ s, exec .reset s = .next t) ↔ ∃ s, t = resetBlock s := by
  simp only [exec_reset_next]
  constructor
  · rintro (rfl | h)
    · exact ⟨State.reset, resetBlock_powerOn.symm⟩
    · exact h
  · exact .inr

/-- R34's table, of the state after RESET. -/
theorem resetBlock_values (s : State) :
    (∀ c, ((resetBlock s).knob c).value = 0 ∧ ((resetBlock s).knob c).previous = 0 ∧
      ((resetBlock s).knob c).lastChangeMs = 0) ∧
    (resetBlock s).scanCh = 0 ∧ (resetBlock s).pPhase = .sample ∧ (resetBlock s).txq = [] ∧
    (resetBlock s).usbPend = false ∧ (resetBlock s).irqEn = false ∧ (resetBlock s).mode = .boot ∧
    (resetBlock s).fault = none := by
  simp [knob_reset_eq]

end Sys2Proof.Machine

open Sys2Proof.Machine

/-- Settles O3: R34's table is that of `resetBlock`, which gives both the power-on state and every state after
RESET, and which keeps the logs and the channel map. -/
theorem resetValuesAreThoseListed : Obligations.ResetValuesAreThoseListed := by
  unfold Obligations.ResetValuesAreThoseListed
  refine ⟨fun t ht => ?_, rfl, rfl, rfl, fun s t ht => ?_⟩
  · obtain ⟨s, rfl⟩ := powerOn_or_exec_reset_iff.mp ht
    exact resetBlock_values s
  · obtain rfl := exec_reset_next.mp ht
    exact ⟨resetBlock_serOut s, resetBlock_hostIn s, resetBlock_chanMap s⟩

end

section
/-! The outbound queue and what the host has received, along a run (20_memory.md R49).  What one instruction does to
the two is said once; a run composes these. -/

namespace Sys2Proof.Machine

@[simp] theorem sampleStep_txq (v : Sample) (now : Time) (s : State) : (sampleStep v now s).txq = s.txq := by
  rcases sampleStep_cases v now s with ⟨_, e⟩ | ⟨_, _, e⟩ | ⟨_, _, e⟩ <;> simp [e]

@[simp] theorem sampleStep_hostIn (v : Sample) (now : Time) (s : State) :
    (sampleStep v now s).hostIn = s.hostIn := by
  rcases sampleStep_cases v now s with ⟨_, e⟩ | ⟨_, _, e⟩ | ⟨_, _, e⟩ <;> simp [e]

@[simp] theorem serialMessage_txq (m : List Byte) (s : State) : (serialMessage m s).txq = s.txq := by
  rw [serialMessage_any]

@[simp] theorem serialMessage_hostIn (m : List Byte) (s : State) : (serialMessage m s).hostIn = s.hostIn := by
  rw [serialMessage_any]

theorem pushedBy_push_of_frame {s : State} {p : Packet} (ok : Bool) (h : frame s.pMsg = .ok p) :
    pushedBy (.push ok) s = if s.txq.length < Config.usbTxDepth && ok then [p] else [] := by
  simp [pushedBy, h, Except.toOption]

theorem pushedBy_push_of_frame_error {s : State} {e : FaultCode} (ok : Bool) (h : frame s.pMsg = .error e) :
    pushedBy (.push ok) s = [] := by
  simp [pushedBy, h, Except.toOption]

/-- Only PUSH puts a packet into the queue. -/
theorem pushedBy_of_ne_push {i : Instr} (h : ∀ ok, i ≠ .push ok) (s : State) : pushedBy i s = [] := by
  unfold pushedBy
  split
  · exact absurd rfl (h _)
  · rfl

/-- PUSH appends to the queue exactly the packet that `pushedBy` names, if it names one. -/
theorem pushStep_txq (ok : Bool) (s : State) :
    (pushStep Config.usbTxDepth ok s).txq = s.txq ++ pushedBy (.push ok) s := by
  unfold pushStep
  cases hf : frame s.pMsg with
  | error e => simp [pushedBy_push_of_frame_error ok hf]
  | ok p =>
    rw [pushedBy_push_of_frame ok hf]
    rcases pushOrDrop_cases Config.usbTxDepth ok p s with ⟨hroom, rfl, e⟩ | ⟨hfull, e⟩
    · simp [e, hroom]
    · simp [e, hfull]

@[simp] theorem pushStep_hostIn (depth : Nat) (ok : Bool) (s : State) :
    (pushStep depth ok s).hostIn = s.hostIn := by
  unfold pushStep
  cases frame s.pMsg with
  | error e => simp
  | ok p => rcases pushOrDrop_cases depth ok p s with ⟨_, _, e⟩ | ⟨_, e⟩ <;> simp [e]

/-- Everything an instruction that completes can do to the queue and to what the host has received: append its push,
take the head, or, at RESET, lose what is queued. -/
theorem exec_txq_hostIn_cases {i : Instr} {s t : State} (h : exec i s = .next t) :
    (t.hostIn = s.hostIn ∧ t.txq = s.txq ++ pushedBy i s) ∨
    (∃ d p, i = .hostTake d ∧ s.txq = p :: t.txq ∧ t.hostIn = s.hostIn ++ if d then [p] else []) ∨
    (i = .reset ∧ t.hostIn = s.hostIn ∧ t.txq = []) := by
  have kept (hi : ∀ ok, i ≠ .push ok) (hhost : t.hostIn = s.hostIn) (hq : t.txq = s.txq) :
      t.hostIn = s.hostIn ∧ t.txq = s.txq ++ pushedBy i s :=
    ⟨hhost, by rw [pushedBy_of_ne_push hi, hq, List.append_nil]⟩
  rcases exec_next_cases h with ⟨r, hop, rfl⟩ | ⟨raw, now, rfl, _, rfl⟩ | ⟨rfl, _, rfl⟩ | ⟨ok, rfl, _, rfl⟩ |
    ⟨rfl, _, rfl⟩ | ⟨k, rfl, _, rfl⟩ | ⟨a, rx, rfl, _, rfl⟩ | ⟨p, rest, rfl, _, hq, rfl⟩ |
    ⟨p, rest, rfl, _, hq, rfl⟩ | ⟨rfl, _, rfl⟩ | ⟨rfl, _, rfl⟩ | ⟨rfl, rfl⟩
  · exact .inl (kept (by rintro ok rfl; cases hop) rfl rfl)
  · exact .inl (kept (by simp) (by simp) (by simp))
  · exact .inl (kept (by simp) (by simp) (by simp))
  · exact .inl ⟨pushStep_hostIn _ ok s, pushStep_txq ok s⟩
  · exact .inl (kept (by simp) rfl rfl)
  · exact .inl (kept (by simp) rfl rfl)
  · exact .inl (kept (by simp) rfl rfl)
  · exact .inr (.inl ⟨true, p, rfl, by simp [hq], by simp⟩)
  · exact .inr (.inl ⟨false, p, rfl, by simp [hq], by simp⟩)
  · exact .inl (kept (by simp) rfl rfl)
  · exact .inl (kept (by simp) rfl rfl)
  · exact .inr (.inr ⟨rfl, resetBlock_hostIn s, resetBlock_txq s⟩)

/-- From `s` to `t` the host receives packets that, followed by what is queued in `t`, are an in-order subsequence of
what was queued in `s` followed by `pushed`: the relation of 20_memory.md R49 between the ends of a run. -/
def KeepsOrder (s : State) (pushed : List Packet) (t : State) : Prop :=
  ∃ got, t.hostIn = s.hostIn ++ got ∧ (got ++ t.txq).Sublist (s.txq ++ pushed)

theorem KeepsOrder.refl (s : State) : KeepsOrder s [] s :=
  ⟨[], (List.append_nil _).symm, by simp⟩

/-- What the host receives first comes before all that is still queued or pushed later, so the relation composes. -/
theorem KeepsOrder.trans {s u t : State} {ps qs : List Packet} (hsu : KeepsOrder s ps u)
    (hut : KeepsOrder u qs t) : KeepsOrder s (ps ++ qs) t := by
  obtain ⟨got, hhost, hsub⟩ := hsu
  obtain ⟨got', hhost', hsub'⟩ := hut
  refine ⟨got ++ got', by rw [hhost', hhost, List.append_assoc], ?_⟩
  have later : (got ++ (got' ++ t.txq)).Sublist (got ++ (u.txq ++ qs)) := hsub'.append_left got
  have earlier : ((got ++ u.txq) ++ qs).Sublist ((s.txq ++ ps) ++ qs) := hsub.append_right qs
  simpa only [List.append_assoc] using later.trans (by simpa only [List.append_assoc] using earlier)

/-- Every instruction keeps the order: a push is appended behind the queue, a take moves or loses the head, RESET
loses the whole queue. -/
theorem exec_keepsOrder {i : Instr} {s t : State} (h : exec i s = .next t) :
    KeepsOrder s (pushedBy i s) t := by
  rcases exec_txq_hostIn_cases h with ⟨hhost, hq⟩ | ⟨d, p, rfl, hq, hhost⟩ | ⟨rfl, hhost, hq⟩
  · exact ⟨[], by simp [hhost], by simp [hq]⟩
  · refine ⟨_, hhost, ?_⟩
    rw [pushedBy_of_ne_push (by simp), hq]
    cases d <;> simp
  · exact ⟨[], by simp [hhost], by simp [hq]⟩

theorem pushesOf_cons_of_next {i : Instr} {s u : State} (is : List Instr) (h : exec i s = .next u) :
    pushesOf (i :: is) s = pushedBy i s ++ pushesOf is u := by
  simp [pushesOf, h]

theorem runOps_keepsOrder {ops : List Instr} {s t : State} (h : runOps ops s = .next t) :
    KeepsOrder s (pushesOf ops s) t := by
  induction ops generalizing s with
  | nil =>
    cases h
    exact .refl _
  | cons i is ih =>
    obtain ⟨u, hu, hrun⟩ := runOps_cons_next h
    rw [pushesOf_cons_of_next is hu]
    exact (exec_keepsOrder hu).trans (ih hrun)

end Sys2Proof.Machine

open Sys2Proof.Machine

/-- Settles O46: `KeepsOrder` holds of every instruction and composes, so it holds of every run. -/
theorem usbPacketsKeepTheirOrder : Obligations.UsbPacketsKeepTheirOrder := by
  unfold Obligations.UsbPacketsKeepTheirOrder
  intro ops s t h
  exact runOps_keepsOrder h

end

section
/-! Masks and matches of the encodings (30_encoding.md R57, R60, R63).  A table word is bytes in a row, so a mask and a
match in a row are read byte by byte; what is left is a fact about one byte. -/

namespace Sys2Proof.Machine

/-- A row of two words is determined part by part. -/
theorem append_eq_append_iff {n m : Nat} {x x' : BitVec n} {y y' : BitVec m} :
    x ++ y = x' ++ y' ↔ x = x' ∧ y = y' := by
  constructor
  · intro h
    have hhigh := congrArg (BitVec.extractLsb' m n) h
    have hlow := congrArg (BitVec.extractLsb' 0 m) h
    simp only [BitVec.extractLsb'_append_eq_left, BitVec.extractLsb'_append_eq_right] at hhigh hlow
    exact ⟨hhigh, hlow⟩
  · rintro ⟨rfl, rfl⟩
    rfl

/-- A row of two words matches a pattern when each part matches its part of the pattern. -/
theorem append_and_eq_append_iff {n m : Nat} {x mx vx : BitVec n} {y my vy : BitVec m} :
    (x ++ y) &&& (mx ++ my) = vx ++ vy ↔ x &&& mx = vx ∧ y &&& my = vy := by
  rw [BitVec.and_append, append_eq_append_iff]

/-- A mask of eight ones keeps the byte. -/
theorem and_byteMask (b : Byte) : b &&& 0xFF#8 = b := BitVec.and_allOnes

/-- A message against the pattern of CC_MSG: its status byte is fixed, its data bytes have bit 7 zero (R57). -/
theorem ccMsg_match_iff (b0 b1 b2 : Byte) :
    (b0 ++ b1 ++ b2) &&& 0xFF8080#24 = 0xB00000#24 ↔
      b0 = 0xB0#8 ∧ b1 &&& 0x80#8 = 0#8 ∧ b2 &&& 0x80#8 = 0#8 := by
  rw [show 0xFF8080#24 = 0xFF#8 ++ 0x80#8 ++ 0x80#8 from rfl, show 0xB00000#24 = 0xB0#8 ++ 0#8 ++ 0#8 from rfl,
    append_and_eq_append_iff, append_and_eq_append_iff, and_byteMask, and_assoc]

/-- A packet against the pattern of USB_PKT: its header is fixed, the rest is against that of CC_MSG (R60). -/
theorem usbPkt_match_iff (h b0 b1 b2 : Byte) :
    (h ++ b0 ++ b1 ++ b2) &&& 0xFFFF8080#32 = 0x0BB00000#32 ↔
      h = 0x0B#8 ∧ b0 = 0xB0#8 ∧ b1 &&& 0x80#8 = 0#8 ∧ b2 &&& 0x80#8 = 0#8 := by
  rw [show 0xFFFF8080#32 = 0xFF#8 ++ 0xFF#8 ++ 0x80#8 ++ 0x80#8 from rfl,
    show 0x0BB00000#32 = 0x0B#8 ++ 0xB0#8 ++ 0#8 ++ 0#8 from rfl, append_and_eq_append_iff,
    append_and_eq_append_iff, append_and_eq_append_iff, and_byteMask, and_byteMask, and_assoc, and_assoc]

/-- A pattern that constrains the header alone, as those of the inbound rows do (R63). -/
theorem header_match_iff (h b0 b1 b2 mask val : Byte) :
    (h ++ b0 ++ b1 ++ b2) &&& (mask ++ 0#8 ++ 0#8 ++ 0#8) = val ++ 0#8 ++ 0#8 ++ 0#8 ↔ h &&& mask = val := by
  simp only [append_and_eq_append_iff, BitVec.and_zero, and_true]

theorem dataByte_and_highBit (v : BitVec 7) : dataByte v &&& 0x80#8 = 0#8 := by
  revert v; decide

/-- The encoder's message in bytes (41_encoder.md R87). -/
theorem encodeCc_eq (map : Vector Chan 16) (c : Chan) (v : Sample) :
    encodeCc map c v = [0xB0#8, dataByte (controllerOf map c), dataByte v] := by
  simp [encodeCc, ccMessage]

/-- The packet around the encoder's message (42_sender_cdc.md R98). -/
theorem frame_encodeCc (map : Vector Chan 16) (c : Chan) (v : Sample) :
    frame (encodeCc map c v) = .ok ⟨0x0B#8, 0xB0#8, dataByte (controllerOf map c), dataByte v⟩ := by
  rw [encodeCc_eq, frame_three, usbHeader_eq]

end Sys2Proof.Machine

open Sys2Proof Sys2Proof.Machine

/-- Settles O21: byte by byte, the status byte is `0xB0` and the data bytes of a 7-bit value have bit 7 zero. -/
theorem messagesMatchTheirPattern : Obligations.MessagesMatchTheirPattern := by
  unfold Obligations.MessagesMatchTheirPattern
  intro map c v
  refine ⟨0xB0#8, dataByte (controllerOf map c), dataByte v, encodeCc_eq map c v, ?_, rfl, ?_, toNat_dataByte v⟩
  · exact (ccMsg_match_iff _ _ _).mpr ⟨rfl, dataByte_and_highBit _, dataByte_and_highBit _⟩
  · rw [toNat_dataByte, toNat_controllerOf]

/-- Settles O22: the packet is the header `0x0B` in front of the encoder's message, and only three bytes frame. -/
theorem packetsMatchTheirPattern : Obligations.PacketsMatchTheirPattern := by
  unfold Obligations.PacketsMatchTheirPattern
  refine ⟨fun map c v => ⟨_, frame_encodeCc map c v, ?_, rfl, ?_⟩, fun b0 b1 b2 => ?_, fun m hm => frame_error hm⟩
  · exact (usbPkt_match_iff _ _ _ _).mpr ⟨rfl, rfl, dataByte_and_highBit _, dataByte_and_highBit _⟩
  · rw [encodeCc_eq]
    rfl
  · rw [frame_three, usbHeader_eq]
    rfl

end

section
/-! The rows of an inbound packet (30_encoding.md R63).  Bits 3 and 2 of the header decide both the row and the class;
each of the three rows keeps the bits it does not fix. -/

namespace Sys2Proof.Machine

/-- Everything the row of an inbound packet can be, with the header bits that choose it. -/
theorem decodeInbound_cases (p : Packet) :
    (p.header[3] = true ∧
      decodeInbound p = .usbInRegularHi (cableOf p) (p.header.extractLsb' 0 3) p.m0 p.m1 p.m2) ∨
    (p.header[3] = false ∧ p.header[2] = true ∧
      decodeInbound p = .usbInSysex (cableOf p) (p.header.extractLsb' 0 2) p.m0 p.m1 p.m2) ∨
    (p.header[3] = false ∧ p.header[2] = false ∧
      decodeInbound p = .usbInRegularLo (cableOf p) (p.header.extractLsb' 0 2) p.m0 p.m1 p.m2) := by
  unfold decodeInbound
  cases h3 : p.header[3] <;> cases h2 : p.header[2] <;> simp [h3, h2]

/-! The headers the three rows match, as bits. -/

theorem header_matches_sysex_iff (h : Byte) :
    h &&& 0x0C#8 = 0x04#8 ↔ h[3] = false ∧ h[2] = true := by
  revert h; decide

theorem header_matches_regularLo_iff (h : Byte) :
    h &&& 0x0C#8 = 0#8 ↔ h[3] = false ∧ h[2] = false := by
  revert h; decide

theorem header_matches_regularHi_iff (h : Byte) : h &&& 0x08#8 = 0x08#8 ↔ h[3] = true := by
  revert h; decide

/-! A header put together again from its cable number, the bits its row fixes and the rest. -/

theorem header_of_regularHi (h : Byte) (h3 : h[3] = true) :
    h.extractLsb' 4 4 ++ (1#1 ++ h.extractLsb' 0 3) = h := by
  revert h; decide

theorem header_of_sysex (h : Byte) (h3 : h[3] = false) (h2 : h[2] = true) :
    h.extractLsb' 4 4 ++ (0b01#2 ++ h.extractLsb' 0 2) = h := by
  revert h; decide

theorem header_of_regularLo (h : Byte) (h3 : h[3] = false) (h2 : h[2] = false) :
    h.extractLsb' 4 4 ++ (0b00#2 ++ h.extractLsb' 0 2) = h := by
  revert h; decide

/-- The written form of a packet's row is the packet. -/
theorem encode_decodeInbound (p : Packet) : encode (decodeInbound p) = .bytes .usbOut p.bytes := by
  rcases decodeInbound_cases p with ⟨h3, e⟩ | ⟨h3, h2, e⟩ | ⟨h3, h2, e⟩
  · simp only [e, encode, cableOf, header_of_regularHi p.header h3, Packet.bytes]
  · simp only [e, encode, cableOf, header_of_sysex p.header h3 h2, Packet.bytes]
  · simp only [e, encode, cableOf, header_of_regularLo p.header h3 h2, Packet.bytes]

/-! Each row is chosen by its mask and match. -/

theorem decodeInbound_sysex_iff (p : Packet) :
    (∃ k i a b c, decodeInbound p = .usbInSysex k i a b c) ↔
      (p.header ++ p.m0 ++ p.m1 ++ p.m2) &&& 0x0C000000#32 = 0x04000000#32 := by
  refine Iff.trans ?_ (header_match_iff p.header p.m0 p.m1 p.m2 0x0C#8 0x04#8).symm
  rw [header_matches_sysex_iff]
  rcases decodeInbound_cases p with ⟨h3, e⟩ | ⟨h3, h2, e⟩ | ⟨h3, h2, e⟩ <;> simp [*]

theorem decodeInbound_regularLo_iff (p : Packet) :
    (∃ k i a b c, decodeInbound p = .usbInRegularLo k i a b c) ↔
      (p.header ++ p.m0 ++ p.m1 ++ p.m2) &&& 0x0C000000#32 = 0x00000000#32 := by
  refine Iff.trans ?_ (header_match_iff p.header p.m0 p.m1 p.m2 0x0C#8 0#8).symm
  rw [header_matches_regularLo_iff]
  rcases decodeInbound_cases p with ⟨h3, e⟩ | ⟨h3, h2, e⟩ | ⟨h3, h2, e⟩ <;> simp [*]

theorem decodeInbound_regularHi_iff (p : Packet) :
    (∃ k i a b c, decodeInbound p = .usbInRegularHi k i a b c) ↔
      (p.header ++ p.m0 ++ p.m1 ++ p.m2) &&& 0x08000000#32 = 0x08000000#32 := by
  refine Iff.trans ?_ (header_match_iff p.header p.m0 p.m1 p.m2 0x08#8 0x08#8).symm
  rw [header_matches_regularHi_iff]
  rcases decodeInbound_cases p with ⟨h3, e⟩ | ⟨h3, h2, e⟩ | ⟨h3, h2, e⟩ <;> simp [*]

/-- The Code Index Numbers whose upper half is `01`. -/
theorem cin_upper_half_iff (n : BitVec 4) : n.extractLsb' 2 2 = 0b01#2 ↔ n.toNat ∈ [4, 5, 6, 7] := by
  revert n; decide

theorem classOf_eq_sysex_iff (p : Packet) : classOf p = .sysex ↔ (cinOf p).toNat ∈ [4, 5, 6, 7] := by
  rw [← cin_upper_half_iff, classOf]
  split <;> simp [*]

theorem classOf_eq_regular_iff (p : Packet) : classOf p = .regular ↔ (cinOf p).toNat ∉ [4, 5, 6, 7] := by
  rw [← classOf_eq_sysex_iff]
  cases classOf p <;> simp

end Sys2Proof.Machine

open Sys2Proof.Machine

/-- Settles O26: bits 3:2 of the header decide the row and the class, and both classes are discarded. -/
theorem inboundPacketsHaveOneRow : Obligations.InboundPacketsHaveOneRow := by
  unfold Obligations.InboundPacketsHaveOneRow
  intro p
  exact ⟨classOf_eq_sysex_iff p, classOf_eq_regular_iff p, discardInbound_eq p, decodeInbound_sysex_iff p,
    decodeInbound_regularLo_iff p, decodeInbound_regularHi_iff p, encode_decodeInbound p⟩

end

section
/-! Where the operations step (30_encoding.md R70).  That an operation completes exactly where it is enabled is proved
once for all ten; the phases are those of the producer's three working steps. -/

namespace Sys2Proof.Machine

theorem exists_whenEnabled_next {op : OpName} {on : Bool} {u : State} :
    (∃ t, whenEnabled op on u = .next t) ↔ on = true := by
  simp only [whenEnabled_next, exists_and_left, exists_eq', and_true]

/-- An operation whose operands can stand at their ports completes exactly where it is enabled. -/
theorem exec_completes_iff_enabled {i : Instr} (s : State) (hop : isOperation i = true)
    (hwf : wellFormed i = true) : (∃ t, exec i s = .next t) ↔ enabled i s = true := by
  cases i with
  | ccMsg c v => cases hop
  | usbMidiCcPkt c v => cases hop
  | usbInSysex k i a b c => cases hop
  | usbInRegularLo k i a b c => cases hop
  | usbInRegularHi k i a b c => cases hop
  | sample raw now => exact exists_whenEnabled_next
  | serial => exact exists_whenEnabled_next
  | push ok => exact exists_whenEnabled_next
  | idle => exact exists_whenEnabled_next
  | usbEvent kind => cases kind <;> exact exists_whenEnabled_next
  | poll activity rx =>
    have hread : presentableRead activity rx = true := hwf
    simp only [exec, execPoll, hread, if_true]
    exact exists_whenEnabled_next
  | hostTake deliver =>
    simp only [exec, execHostTake, enabled]
    split
    · next hq => simp [hostTakeEnabled, hq]
    · exact exists_whenEnabled_next
  | bootDone => exact exists_whenEnabled_next
  | bootFail => exact exists_whenEnabled_next
  | reset => exact ⟨fun _ => rfl, fun _ => ⟨_, exec_reset s⟩⟩

/-! The conditions of R70's table. -/

theorem sampleEnabled_iff (s : State) : sampleEnabled s = true ↔ s.mode = .run ∧ s.pPhase = .sample := by
  simp [sampleEnabled]

theorem serialEnabled_iff (s : State) : serialEnabled s = true ↔ s.mode = .run ∧ s.pPhase = .serial := by
  simp [serialEnabled]

theorem pushEnabled_iff (s : State) : pushEnabled s = true ↔ s.mode = .run ∧ s.pPhase = .push := by
  simp [pushEnabled]

theorem idleEnabled_iff (s : State) : idleEnabled s = true ↔ s.mode = .run := by
  simp [idleEnabled]

theorem usbEventEnabled_iff (s : State) : usbEventEnabled s = true ↔ s.mode = .boot ∨ s.mode = .run := by
  simp [usbEventEnabled]

theorem pollEnabled_iff (s : State) :
    pollEnabled s = true ↔ s.mode = .run ∧ s.irqEn = true ∧ s.usbPend = true := by
  simp [pollEnabled, and_assoc]

theorem hostTakeEnabled_iff (s : State) : hostTakeEnabled s = true ↔ s.mode = .run ∧ s.txq ≠ [] := by
  simp [hostTakeEnabled]

theorem bootEnabled_iff (s : State) : bootEnabled s = true ↔ s.mode = .boot := by
  simp [bootEnabled]

/-! The phases of the producer's steps. -/

theorem isProducerWork_cases {i : Instr} (h : isProducerWork i = true) :
    (∃ raw now, i = .sample raw now) ∨ i = .serial ∨ ∃ ok, i = .push ok := by
  unfold isProducerWork at h
  split at h
  · exact .inl ⟨_, _, rfl⟩
  · exact .inr (.inl rfl)
  · exact .inr (.inr ⟨_, rfl⟩)
  · cases h

/-- A SAMPLE goes on to SERIAL when its rule emits, and to the next channel's SAMPLE when not
(40_scan_debounce.md R78). -/
theorem sampleStep_pPhase (v : Sample) (now : Time) (s : State) :
    (sampleStep v now s).pPhase = if emitsAt s s.scanCh v now then .serial else .sample := by
  rcases sampleStep_cases v now s with ⟨hv, e⟩ | ⟨hv, hi, e⟩ | ⟨hv, hi, e⟩ <;> rw [e]
  · simp [emitsAt, debounce, hv]
  · simp [emitsAt, debounce, hv, hi]
  · simp [emitsAt, debounce, hv, hi]

/-- A SAMPLE emits no bytes exactly when its rule does not emit. -/
theorem emittedBy_sample_eq_nil (raw : BitVec Config.adcBits) (now : Time) (s : State) :
    emittedBy (.sample raw now) s = [] ↔ emitsAt s s.scanCh (downscale raw) now = false := by
  simp only [emittedBy, encodeCc_eq]
  cases emitsAt s s.scanCh (downscale raw) now <;> simp

/-- A PUSH that does not halt the block finishes the channel, whether it appends or drops. -/
theorem pushStep_pPhase {depth : Nat} {ok : Bool} {s : State} (h : (pushStep depth ok s).mode = .run) :
    (pushStep depth ok s).pPhase = .sample := by
  unfold pushStep at h ⊢
  cases hf : frame s.pMsg with
  | ok pkt => rfl
  | error code => simp [hf] at h

/-- The producer's working steps follow one another in phase order. -/
theorem producerWork_phase_order {i : Instr} {s t : State} (hi : isProducerWork i = true)
    (h : exec i s = .next t) (hrun : t.mode = .run) :
    (s.pPhase = .sample ∧ t.pPhase = if emittedBy i s = [] then .sample else .serial) ∨
    (s.pPhase = .serial ∧ t.pPhase = .push) ∨ (s.pPhase = .push ∧ t.pPhase = .sample) := by
  rcases isProducerWork_cases hi with ⟨raw, now, rfl⟩ | rfl | ⟨ok, rfl⟩
  · obtain ⟨hen, rfl⟩ := whenEnabled_next.mp h
    refine .inl ⟨((sampleEnabled_iff s).mp hen).2, ?_⟩
    simp only [sampleStep_pPhase, emittedBy_sample_eq_nil]
    cases emitsAt s s.scanCh (downscale raw) now <;> rfl
  · obtain ⟨hen, rfl⟩ := whenEnabled_next.mp h
    exact .inr (.inl ⟨((serialEnabled_iff s).mp hen).2, setPhase_pPhase _ _⟩)
  · obtain ⟨hen, rfl⟩ := whenEnabled_next.mp h
    exact .inr (.inr ⟨((pushEnabled_iff s).mp hen).2, pushStep_pPhase hrun⟩)

end Sys2Proof.Machine

open Sys2Proof.Machine

/-- Settles O37: every operation completes exactly where it is enabled, its condition is that of R70's table, and the
producer's three steps are in phase order. -/
theorem operationsStepExactlyWhereEnabled : Obligations.OperationsStepExactlyWhereEnabled := by
  unfold Obligations.OperationsStepExactlyWhereEnabled
  intro s
  refine ⟨fun raw now => ?sample, ?serial, fun ok => ?push, ?idle, fun kind => ?usbEvent, fun a rx hread => ?poll,
    fun d => ?hostTake, ?bootDone, ?bootFail, ⟨_, exec_reset s⟩, fun i t => producerWork_phase_order⟩
  case sample => exact (exec_completes_iff_enabled s rfl rfl).trans (sampleEnabled_iff s)
  case serial => exact (exec_completes_iff_enabled s rfl rfl).trans (serialEnabled_iff s)
  case push => exact (exec_completes_iff_enabled s rfl rfl).trans (pushEnabled_iff s)
  case idle => exact (exec_completes_iff_enabled s rfl rfl).trans (idleEnabled_iff s)
  case usbEvent => exact (exec_completes_iff_enabled s rfl rfl).trans (usbEventEnabled_iff s)
  case poll => exact (exec_completes_iff_enabled (i := .poll a rx) s rfl hread).trans (pollEnabled_iff s)
  case hostTake => exact (exec_completes_iff_enabled s rfl rfl).trans (hostTakeEnabled_iff s)
  case bootDone => exact (exec_completes_iff_enabled s rfl rfl).trans (bootEnabled_iff s)
  case bootFail => exact (exec_completes_iff_enabled s rfl rfl).trans (bootEnabled_iff s)

end

section
/-! The debounce rule at SAMPLE (40_scan_debounce.md R78 to R82).  The gate is read in natural numbers once; then each
of the three outcomes of a SAMPLE step is named with the condition that chooses it. -/

namespace Sys2Proof.Machine

/-! The timestamp gate. -/

/-- Two 32-bit numbers as large as these have a sum below `2 ^ 33`, so the gate's sum is exact (R80). -/
theorem toNat_gateSum (T : Time) : (T.setWidth 33 + Config.debounceMs).toNat = T.toNat + 50 := by
  have hT : T.toNat < 2 ^ 32 := T.isLt
  simp only [BitVec.toNat_add, BitVec.toNat_setWidth, Config.debounceMs, BitVec.reduceToNat]
  omega

theorem gateExpired_iff (T now : Time) : gateExpired T now = true ↔ T.toNat + 50 < now.toNat := by
  have hnow : (now.setWidth 33).toNat = now.toNat := BitVec.toNat_setWidth_of_le (by decide)
  rw [gateExpired, decide_eq_true_iff, BitVec.lt_def, toNat_gateSum, hnow]

theorem shouldIgnore_iff (P : Sample) (T : Time) (s : Sample) (now : Time) :
    shouldIgnore P T s now = true ↔ s = P ∧ T.toNat + 50 < now.toNat := by
  rw [shouldIgnore, Bool.and_eq_true, beq_iff_eq, gateExpired_iff]

theorem shouldIgnore_eq_false_iff (P : Sample) (T : Time) (s : Sample) (now : Time) :
    shouldIgnore P T s now = false ↔ s ≠ P ∨ now.toNat ≤ T.toNat + 50 := by
  rw [← Bool.not_eq_true, shouldIgnore_iff, not_and_or, Nat.not_lt]

/-- A transition is emitted exactly when it is not ignored (R79). -/
theorem debounce_emit_of_ne {V s : Sample} (P : Sample) (T now : Time) (h : s ≠ V) :
    (debounce V P T s now).emit = true ↔ s ≠ P ∨ now.toNat ≤ T.toNat + 50 := by
  rw [debounce, if_neg h, Bool.not_eq_true', shouldIgnore_eq_false_iff]

/-! The three outcomes of a SAMPLE step, each under its condition. -/

theorem sampleStep_of_eq_value {v : Sample} {s : State} (now : Time) (h : v = (s.knob s.scanCh).value) :
    sampleStep v now s = (s.muxSelect s.scanCh).finishChannel := by
  rcases sampleStep_cases v now s with ⟨_, e⟩ | ⟨hne, _, _⟩ | ⟨hne, _, _⟩
  · exact e
  · exact absurd h hne
  · exact absurd h hne

theorem sampleStep_of_emitted {v : Sample} {now : Time} {s : State} (h : v ≠ (s.knob s.scanCh).value)
    (hkeep : shouldIgnore (s.knob s.scanCh).previous (s.knob s.scanCh).lastChangeMs v now = false) :
    sampleStep v now s =
      (((s.muxSelect s.scanCh).setKnob s.scanCh ⟨v, (s.knob s.scanCh).value, now⟩).setMsg
        (encodeCc s.chanMap s.scanCh v)).setPhase .serial := by
  rcases sampleStep_cases v now s with ⟨heq, _⟩ | ⟨_, hignore, _⟩ | ⟨_, _, e⟩
  · exact absurd heq h
  · exact absurd hignore (Bool.eq_false_iff.mp hkeep)
  · exact e

theorem sampleStep_of_suppressed {v : Sample} {now : Time} {s : State} (h : v ≠ (s.knob s.scanCh).value)
    (hignore : shouldIgnore (s.knob s.scanCh).previous (s.knob s.scanCh).lastChangeMs v now = true) :
    sampleStep v now s =
      ((s.muxSelect s.scanCh).setKnob s.scanCh ⟨v, (s.knob s.scanCh).value, now⟩).finishChannel := by
  rcases sampleStep_cases v now s with ⟨heq, _⟩ | ⟨_, _, e⟩ | ⟨_, hkeep, _⟩
  · exact absurd heq h
  · exact e
  · exact absurd hignore (Bool.eq_false_iff.mp hkeep)

/-- A transition records the sample, the value before it and its time, whether it is emitted or suppressed (R82). -/
theorem knob_sampleStep_of_ne_value {v : Sample} {s : State} (now : Time) (h : v ≠ (s.knob s.scanCh).value) :
    (sampleStep v now s).knob s.scanCh = ⟨v, (s.knob s.scanCh).value, now⟩ := by
  rcases sampleStep_cases v now s with ⟨heq, _⟩ | ⟨_, _, e⟩ | ⟨_, _, e⟩
  · exact absurd heq h
  · rw [e, knob_congr (finishChannel_knobs _), knob_setKnob_same]
  · rw [e, knob_congr (setPhase_knobs _ _), knob_congr (setMsg_knobs _ _), knob_setKnob_same]

/-! SAMPLE as an instruction. -/

theorem exec_sample_of_enabled {s : State} (raw : BitVec Config.adcBits) (now : Time) (hmode : s.mode = .run)
    (hphase : s.pPhase = .sample) : exec (.sample raw now) s = .next (sampleStep (downscale raw) now s) :=
  whenEnabled_next.mpr ⟨(sampleEnabled_iff s).mpr ⟨hmode, hphase⟩, rfl⟩

theorem exec_sample_of_not_enabled {s : State} (raw : BitVec Config.adcBits) (now : Time)
    (h : ¬(s.mode = .run ∧ s.pPhase = .sample)) : exec (.sample raw now) s = .fault (.notEnabled .sample) := by
  have hoff : sampleEnabled s = false := by rw [← Bool.not_eq_true, sampleEnabled_iff]; exact h
  change whenEnabled .sample (sampleEnabled s) _ = _
  rw [hoff, whenEnabled_false]

theorem exec_sample_next {raw : BitVec Config.adcBits} {now : Time} {s t : State}
    (h : exec (.sample raw now) s = .next t) : t = sampleStep (downscale raw) now s :=
  (whenEnabled_next.mp h).2.symm

/-- The controller byte is the exact sum: it is below 128, so its bit 7 is zero. -/
theorem dataByte_controllerOf (map : Vector Chan 16) (c : Chan) :
    dataByte (controllerOf map c) = BitVec.ofNat 8 (101 + (mapEntry map c).toNat) := by
  have hentry : (mapEntry map c).toNat < 16 := (mapEntry map c).isLt
  apply BitVec.eq_of_toNat_eq
  rw [toNat_dataByte, toNat_controllerOf, BitVec.toNat_ofNat, Nat.mod_eq_of_lt (by omega)]

end Sys2Proof.Machine

open Sys2Proof Sys2Proof.Machine

/-- Settles O7: where SAMPLE is enabled, the gate in natural numbers chooses among the three outcomes of
`sampleStep`; elsewhere it has no step. -/
theorem sampleFollowsTheDebounceRule : Obligations.SampleFollowsTheDebounceRule := by
  unfold Obligations.SampleFollowsTheDebounceRule
  rintro s raw now _ _ _ rfl rfl rfl
  refine ⟨fun hmode hphase => ?_, exec_sample_of_not_enabled raw now⟩
  rw [exec_sample_of_enabled raw now hmode hphase]
  refine ⟨fun heq => ?same, fun hne hkeep => ?emitted, fun hne hback hlate => ?suppressed⟩
  case same =>
    rw [sampleStep_of_eq_value now heq, State.finishChannel, ← hphase]
    rfl
  case emitted =>
    rw [sampleStep_of_emitted hne ((shouldIgnore_eq_false_iff _ _ _ _).mpr hkeep), encodeCc_eq,
      dataByte_controllerOf]
    rfl
  case suppressed =>
    rw [sampleStep_of_suppressed hne ((shouldIgnore_iff _ _ _ _).mpr ⟨hback, hlate⟩), State.finishChannel,
      ← hphase]
    rfl

/-- Settles O9: both outcomes of a transition write the same knob. -/
theorem suppressionNeverChangesTheUpdate : Obligations.SuppressionNeverChangesTheUpdate := by
  unfold Obligations.SuppressionNeverChangesTheUpdate
  intro s t raw now h hne
  obtain rfl := exec_sample_next h
  exact knob_sampleStep_of_ne_value now hne

/-- Settles O11: the gate compares exact sums, and from `2 ^ 32 - 50` on the sum is at least `2 ^ 32`, which no time
exceeds. -/
theorem gateSumNeverWraps : Obligations.GateSumNeverWraps := by
  unfold Obligations.GateSumNeverWraps
  intro V P T s now hne
  refine ⟨gateExpired_iff T now, fun hT => (debounce_emit_of_ne P T now hne).mpr (.inr ?_)⟩
  have hnow : now.toNat < 2 ^ 32 := now.isLt
  omega

end

section
/-! The channel map and the controller numbers (41_encoder.md R88 to R90).  A controller number is 101 and an entry of
the map, so what the map gives its sixteen channels decides; and no instruction writes the map. -/

namespace Sys2Proof.Machine

/-! The entries of an admissible map and the controller numbers. -/

/-- One to one on sixteen channels is onto as well: an admissible map is a permutation (10_state.md R20). -/
theorem MapOk.bijective_mapEntry {map : Vector Chan 16} (h : MapOk map) : Function.Bijective (mapEntry map) :=
  Finite.injective_iff_bijective.mp h.1

theorem controllerOf_bounds (map : Vector Chan 16) (c : Chan) :
    101 ≤ (controllerOf map c).toNat ∧ (controllerOf map c).toNat ≤ 116 := by
  have hentry : (mapEntry map c).toNat < 16 := (mapEntry map c).isLt
  rw [toNat_controllerOf]
  omega

/-- The channels of a controller number in range are those whose entry is its offset. -/
theorem toNat_controllerOf_eq_iff (map : Vector Chan 16) (c : Chan) {n : Nat} (hlo : 101 ≤ n) (hhi : n ≤ 116) :
    (controllerOf map c).toNat = n ↔ mapEntry map c = BitVec.ofNat 4 (n - 101) := by
  have hoffset : (BitVec.ofNat 4 (n - 101)).toNat = n - 101 := by
    rw [BitVec.toNat_ofNat, Nat.mod_eq_of_lt (by omega)]
  rw [toNat_controllerOf, ← BitVec.toNat_inj, hoffset]
  omega

/-- A channel with entry 0 has the first controller number, and its message is the one R90 writes out. -/
theorem encodeCc_of_mapEntry_eq_zero {map : Vector Chan 16} {c : Chan} (h : mapEntry map c = 0) (v : Sample) :
    encodeCc map c v = [0xB0, 0x65, 0#1 ++ v] := by
  rw [encodeCc_eq, dataByte_controllerOf, h]
  rfl

/-! The map of the block. -/

/-- The exchange in `mapPerm` undoes what the free permutation does to 8. -/
theorem mapPerm_eight : Config.mapPerm 8 = 0 := by
  rw [Config.mapPerm, Equiv.trans_apply, Equiv.swap_apply_left]

theorem mapEntry_channelMap (c : Chan) :
    mapEntry Config.channelMap c = BitVec.ofNat 4 (Config.mapPerm c.toFin).val := by
  rw [mapEntry, Config.channelMap, Vector.getElem_ofFn]
  rfl

theorem mapEntry_channelMap_eight : mapEntry Config.channelMap 8 = 0 := by
  rw [mapEntry_channelMap, show (8 : Chan).toFin = 8 from rfl, mapPerm_eight]
  rfl

/-! The map along a run. -/

@[simp] theorem sampleStep_chanMap (v : Sample) (now : Time) (s : State) :
    (sampleStep v now s).chanMap = s.chanMap := by
  rcases sampleStep_cases v now s with ⟨_, e⟩ | ⟨_, _, e⟩ | ⟨_, _, e⟩ <;> simp [e]

@[simp] theorem serialMessage_chanMap (m : List Byte) (s : State) :
    (serialMessage m s).chanMap = s.chanMap := by
  rw [serialMessage_any]

@[simp] theorem pushStep_chanMap (depth : Nat) (ok : Bool) (s : State) :
    (pushStep depth ok s).chanMap = s.chanMap := by
  unfold pushStep
  cases frame s.pMsg with
  | error e => simp
  | ok p => rcases pushOrDrop_cases depth ok p s with ⟨_, _, e⟩ | ⟨_, e⟩ <;> simp [e]

/-- No instruction writes the channel map, RESET included. -/
theorem exec_chanMap {i : Instr} {s t : State} (h : exec i s = .next t) : t.chanMap = s.chanMap := by
  rcases exec_next_cases h with ⟨r, _, rfl⟩ | ⟨raw, now, _, _, rfl⟩ | ⟨_, _, rfl⟩ | ⟨ok, _, _, rfl⟩ |
    ⟨_, _, rfl⟩ | ⟨k, _, _, rfl⟩ | ⟨a, rx, _, _, rfl⟩ | ⟨p, rest, _, _, _, rfl⟩ | ⟨p, rest, _, _, _, rfl⟩ |
    ⟨_, _, rfl⟩ | ⟨_, _, rfl⟩ | ⟨_, rfl⟩ <;> simp

theorem reachable_chanMap {s : State} (h : Reachable s) : s.chanMap = Config.channelMap := by
  induction h with
  | powerOn => rfl
  | step i op h ht ih => exact (exec_chanMap ht).trans ih

end Sys2Proof.Machine

open Sys2Proof Sys2Proof.Machine

/-- Settles O19: a number in 101..116 names an offset below 16, and a permutation has each offset at exactly one
channel. -/
theorem controllerNumbersAreABijection : Obligations.ControllerNumbersAreABijection := by
  unfold Obligations.ControllerNumbersAreABijection
  intro map hmap
  refine ⟨controllerOf_bounds map, fun n hlo hhi => ?_⟩
  simp only [toNat_controllerOf_eq_iff map _ hlo hhi]
  exact hmap.bijective_mapEntry.existsUnique (BitVec.ofNat 4 (n - 101))

/-- Settles O20: entry 8 of the block's map is 0, and every reachable state still holds that map. -/
theorem channelEightIsController101 : Obligations.ChannelEightIsController101 := by
  unfold Obligations.ChannelEightIsController101
  refine ⟨mapEntry_channelMap_eight, ?_, fun s hs => ⟨reachable_chanMap hs, fun v => ?_⟩⟩
  · rw [toNat_controllerOf, mapEntry_channelMap_eight]
    rfl
  · rw [reachable_chanMap hs]
    exact encodeCc_of_mapEntry_eq_zero mapEntry_channelMap_eight v

end

section
/-! The two transports (42_sender_cdc.md R96, R100): SERIAL's three bytes, PUSH's three outcomes, and that neither
steps where it is not enabled. -/

namespace Sys2Proof.Machine

theorem whenEnabled_of_ne_true {op : OpName} {on : Bool} (h : on ≠ true) (u : State) :
    whenEnabled op on u = .fault (.notEnabled op) := by
  rw [Bool.eq_false_iff.mpr h, whenEnabled_false]

/-! SERIAL as an instruction. -/

/-- Three serial writes of a message of three bytes append the message. -/
theorem serialMessage_of_eq_three {m : List Byte} {b0 b1 b2 : Byte} (h : m = [b0, b1, b2]) (s : State) :
    serialMessage m s = { s with serOut := s.serOut ++ [b0, b1, b2] } := by
  rw [h, serialMessage_three]

theorem exec_serial_of_enabled {s : State} (hmode : s.mode = .run) (hphase : s.pPhase = .serial) :
    exec .serial s = .next ((serialMessage s.pMsg s).setPhase .push) :=
  whenEnabled_next.mpr ⟨(serialEnabled_iff s).mpr ⟨hmode, hphase⟩, rfl⟩

theorem exec_serial_of_not_enabled {s : State} (h : ¬(s.mode = .run ∧ s.pPhase = .serial)) :
    exec .serial s = .fault (.notEnabled .serial) :=
  whenEnabled_of_ne_true (mt (serialEnabled_iff s).mp h) _

/-! PUSH as an instruction, and its three outcomes, each under its condition. -/

theorem exec_push_of_enabled {s : State} (ok : Bool) (hmode : s.mode = .run) (hphase : s.pPhase = .push) :
    exec (.push ok) s = .next (pushStep Config.usbTxDepth ok s) :=
  whenEnabled_next.mpr ⟨(pushEnabled_iff s).mpr ⟨hmode, hphase⟩, rfl⟩

theorem exec_push_of_not_enabled {s : State} (ok : Bool) (h : ¬(s.mode = .run ∧ s.pPhase = .push)) :
    exec (.push ok) s = .fault (.notEnabled .push) :=
  whenEnabled_of_ne_true (mt (pushEnabled_iff s).mp h) _

theorem pushStep_of_frame {s : State} {p : Packet} (depth : Nat) (ok : Bool) (h : frame s.pMsg = .ok p) :
    pushStep depth ok s = (pushOrDrop depth ok p s).finishChannel := by
  rw [pushStep, h]

theorem pushStep_queued {depth : Nat} {ok : Bool} {s : State} {p : Packet} (h : frame s.pMsg = .ok p)
    (hroom : s.txq.length < depth) (hok : ok = true) :
    pushStep depth ok s = (s.fifoPush p).finishChannel := by
  rw [pushStep_of_frame depth ok h]
  rcases pushOrDrop_cases depth ok p s with ⟨_, _, e⟩ | ⟨hno, _⟩
  · rw [e]
  · exact absurd ⟨hroom, hok⟩ hno

theorem pushStep_dropped {depth : Nat} {ok : Bool} {s : State} {p : Packet} (h : frame s.pMsg = .ok p)
    (hdrop : depth ≤ s.txq.length ∨ ok = false) : pushStep depth ok s = s.finishChannel := by
  rw [pushStep_of_frame depth ok h]
  rcases pushOrDrop_cases depth ok p s with ⟨hroom, hok, _⟩ | ⟨_, e⟩
  · rcases hdrop with hfull | hno
    · exact absurd hroom (Nat.not_lt.mpr hfull)
    · exact absurd hok (Bool.eq_false_iff.mp hno)
  · rw [e]

theorem pushStep_of_frame_error {s : State} {code : FaultCode} (depth : Nat) (ok : Bool)
    (h : frame s.pMsg = .error code) : pushStep depth ok s = raiseFault code s := by
  rw [pushStep, h]

/-- The packet around a message of three bytes, in the block's header (42_sender_cdc.md R98). -/
theorem frame_of_eq_three {m : List Byte} {b0 b1 b2 : Byte} (h : m = [b0, b1, b2]) :
    frame m = .ok ⟨0x0B, b0, b1, b2⟩ := by
  rw [h, frame_three, usbHeader_eq]
  rfl

end Sys2Proof.Machine

open Sys2Proof Sys2Proof.Machine

/-- Settles O14: three serial writes of a message of three bytes are one append of the message. -/
theorem serialWritesTheMessage : Obligations.SerialWritesTheMessage := by
  unfold Obligations.SerialWritesTheMessage
  refine fun s b0 b1 b2 => ⟨fun hmode hphase hmsg => ?_, exec_serial_of_not_enabled⟩
  rw [exec_serial_of_enabled hmode hphase, serialMessage_of_eq_three hmsg]
  rfl

/-- Settles O16: whether the message frames, and then whether the queue has room and the append succeeds, chooses
among the three outcomes of `pushStep`. -/
theorem pushQueuesOrDrops : Obligations.PushQueuesOrDrops := by
  unfold Obligations.PushQueuesOrDrops
  refine fun s ok => ⟨fun b0 b1 b2 hmode hphase hmsg => ⟨fun hroom hok => ?queued, fun hdrop => ?dropped⟩,
    fun hmode hphase hlen => ⟨?pktSize, rfl⟩, exec_push_of_not_enabled ok⟩
  case queued =>
    rw [exec_push_of_enabled ok hmode hphase, pushStep_queued (frame_of_eq_three hmsg) hroom hok]
    rfl
  case dropped =>
    rw [exec_push_of_enabled ok hmode hphase, pushStep_dropped (frame_of_eq_three hmsg) hdrop]
    rfl
  case pktSize =>
    rw [exec_push_of_enabled ok hmode hphase, pushStep_of_frame_error _ ok (frame_error hlen)]
    rfl

end

section
/-! The inbound bytes and the USB side's operations (43_usb_poll.md R109, R110, R113, R115): how the parse cuts its
bytes, and for each operation its step where it is enabled and that it has none elsewhere. -/

namespace Sys2Proof.Machine

/-! The parse, by its own recursion: four bytes are one packet, fewer are a tail that is discarded (R115). -/

theorem parse_cons_four (h a b c : Byte) (rest : List Byte) :
    parse (h :: a :: b :: c :: rest) = ⟨h, a, b, c⟩ :: parse rest := rfl

theorem parse_of_length_lt_four {bs : List Byte} (hlen : bs.length < 4) : parse bs = [] := by
  unfold parse
  split
  · simp only [List.length_cons] at hlen
    omega
  · rfl

theorem length_parse : ∀ bs : List Byte, (parse bs).length = bs.length / 4
  | h :: a :: b :: c :: rest => by
    have ih := length_parse rest
    simp only [parse_cons_four, List.length_cons, ih]
    omega
  | [] | [_] | [_, _] | [_, _, _] => by simp [parse_of_length_lt_four]

/-- Cut into packets and written out again, the bytes lose the tail alone. -/
theorem flatMap_bytes_parse :
    ∀ bs : List Byte, (parse bs).flatMap Packet.bytes = bs.take (4 * (bs.length / 4))
  | h :: a :: b :: c :: rest => by
    have ih := flatMap_bytes_parse rest
    have hlen : 4 * ((h :: a :: b :: c :: rest).length / 4) = 4 * (rest.length / 4) + 4 := by
      simp only [List.length_cons]
      omega
    rw [parse_cons_four, List.flatMap_cons, ih, hlen]
    rfl
  | [] | [_] | [_, _] | [_, _, _] => by simp [parse_of_length_lt_four]

/-! USB_EVENT as an instruction. -/

/-- Both lines have one meaning (R109). -/
theorem exec_usbEvent (kind : UsbKind) (s : State) :
    exec (.usbEvent kind) s = whenEnabled .usbEvent (usbEventEnabled s) (s.setPend true) := by
  cases kind <;> rfl

theorem exec_usbEvent_of_enabled {s : State} (kind : UsbKind) (h : s.mode = .boot ∨ s.mode = .run) :
    exec (.usbEvent kind) s = .next (s.setPend true) := by
  rw [exec_usbEvent, (usbEventEnabled_iff s).mpr h, whenEnabled_true]

theorem exec_usbEvent_of_not_enabled {s : State} (kind : UsbKind) (h : ¬(s.mode = .boot ∨ s.mode = .run)) :
    exec (.usbEvent kind) s = .fault (.notEnabled .usbEvent) := by
  rw [exec_usbEvent, whenEnabled_of_ne_true (mt (usbEventEnabled_iff s).mp h)]

/-! POLL as an instruction. -/

theorem presentableRead_iff {activity : Bool} {rx : List Byte} :
    presentableRead activity rx = true ↔ rx.length ≤ 64 ∧ (activity = false → rx = []) := by
  rw [presentableRead, Bool.and_eq_true, decide_eq_true_iff, Config.usbRxMax]
  cases activity <;> simp

/-- A read that can stand at the port is parsed and discarded, so a poll's step is its entry into the interrupt
context alone. -/
theorem exec_poll_of_presentableRead {activity : Bool} {rx : List Byte} (s : State)
    (h : presentableRead activity rx = true) :
    exec (.poll activity rx) s = whenEnabled .poll (pollEnabled s) (s.setPend false) := by
  simp only [exec, execPoll, h, if_true, servicePoll_eq, leavePoll, enterPoll]

theorem exec_poll_of_enabled {s : State} {activity : Bool} {rx : List Byte}
    (hread : presentableRead activity rx = true)
    (h : s.mode = .run ∧ s.irqEn = true ∧ s.usbPend = true) :
    exec (.poll activity rx) s = .next (s.setPend false) := by
  rw [exec_poll_of_presentableRead s hread, (pollEnabled_iff s).mpr h, whenEnabled_true]

theorem exec_poll_of_not_enabled {s : State} {activity : Bool} {rx : List Byte}
    (hread : presentableRead activity rx = true)
    (h : ¬(s.mode = .run ∧ s.irqEn = true ∧ s.usbPend = true)) :
    exec (.poll activity rx) s = .fault (.notEnabled .poll) := by
  rw [exec_poll_of_presentableRead s hread, whenEnabled_of_ne_true (mt (pollEnabled_iff s).mp h)]

/-! HOST_TAKE as an instruction. -/

theorem fifoDrop_of_cons {s : State} {p : Packet} {rest : List Packet} (hq : s.txq = p :: rest) :
    s.fifoDrop = { s with txq := rest } := by
  rw [State.fifoDrop, hq, List.tail_cons]

theorem exec_hostTake_of_nil {s : State} (deliver : Bool) (hq : s.txq = []) :
    exec (.hostTake deliver) s = .fault (.notEnabled .hostTake) := by
  simp only [exec, execHostTake, hq]

theorem exec_hostTake_of_cons {s : State} {p : Packet} {rest : List Packet} (deliver : Bool)
    (hq : s.txq = p :: rest) :
    exec (.hostTake deliver) s = whenEnabled .hostTake (hostTakeEnabled s) (takeStep deliver p s) := by
  simp only [exec, execHostTake, hq]

theorem exec_hostTake_of_enabled {s : State} {p : Packet} {rest : List Packet} (deliver : Bool)
    (hmode : s.mode = .run) (hq : s.txq = p :: rest) :
    exec (.hostTake deliver) s = .next (takeStep deliver p s) := by
  have hon : hostTakeEnabled s = true := (hostTakeEnabled_iff s).mpr ⟨hmode, by simp [hq]⟩
  rw [exec_hostTake_of_cons deliver hq, hon, whenEnabled_true]

theorem exec_hostTake_of_not_enabled {s : State} (deliver : Bool) (h : ¬(s.mode = .run ∧ s.txq ≠ [])) :
    exec (.hostTake deliver) s = .fault (.notEnabled .hostTake) := by
  cases hq : s.txq with
  | nil => exact exec_hostTake_of_nil deliver hq
  | cons p rest =>
    rw [exec_hostTake_of_cons deliver hq, whenEnabled_of_ne_true (mt (hostTakeEnabled_iff s).mp h)]

end Sys2Proof.Machine

open Sys2Proof Sys2Proof.Machine

/-- Settles O27: each four bytes are one packet, so both the count and the bytes follow the parse's recursion. -/
theorem parseCutsWholePackets : Obligations.ParseCutsWholePackets := by
  unfold Obligations.ParseCutsWholePackets
  exact fun bs => ⟨length_parse bs, flatMap_bytes_parse bs⟩

/-- Settles O31: the two lines have one meaning, enabled in `BOOT` and `RUN`, and `HALT` is neither. -/
theorem usbEventSetsPending : Obligations.UsbEventSetsPending := by
  unfold Obligations.UsbEventSetsPending
  refine fun s kind => ⟨exec_usbEvent_of_enabled kind, fun hhalt => exec_usbEvent_of_not_enabled kind ?_⟩
  simp [hhalt]

/-- Settles O32: a read the port can carry is discarded, so the step is the entry that clears `usb_pend`. -/
theorem pollWritesOnlyPending : Obligations.PollWritesOnlyPending := by
  unfold Obligations.PollWritesOnlyPending
  intro s activity rx hlen hidle
  have hread : presentableRead activity rx = true := presentableRead_iff.mpr ⟨hlen, hidle⟩
  exact ⟨fun hmode hirq hpend => exec_poll_of_enabled hread ⟨hmode, hirq, hpend⟩, exec_poll_of_not_enabled hread⟩

/-- Settles O35: a take drops the head of a non-empty queue in `RUN`, and appends it to what the host has received
exactly when it is delivered. -/
theorem hostTakeMovesTheHead : Obligations.HostTakeMovesTheHead := by
  unfold Obligations.HostTakeMovesTheHead
  refine fun s => ⟨fun p rest hmode hq => ⟨?delivered, ?lost⟩, fun deliver hoff => ?noStep⟩
  case delivered =>
    rw [exec_hostTake_of_enabled true hmode hq, takeStep, if_pos rfl, fifoDrop_of_cons hq]
    rfl
  case lost =>
    rw [exec_hostTake_of_enabled false hmode hq, takeStep, if_neg Bool.false_ne_true, fifoDrop_of_cons hq]
  case noStep =>
    refine exec_hostTake_of_not_enabled deliver fun ⟨hmode, hne⟩ => ?_
    exact hoff.elim (absurd hmode) hne

end

section
/-! Faults, the one pending bit and the wait (60_exceptions.md R124, R130, R139): an operation that is not enabled
stops with `notEnabled`, in `HALT` only RESET is enabled, and a second USB_EVENT finds the bit already set. -/

namespace Sys2Proof.Machine

/-! Operations that are not enabled. -/

/-- An operation whose operands can stand at their ports has no step where it is not enabled (30_encoding.md R70). -/
theorem exec_of_not_enabled {i : Instr} {s : State} (hop : isOperation i = true) (hwf : wellFormed i = true)
    (hoff : enabled i s ≠ true) : ∃ op, exec i s = .fault (.notEnabled op) := by
  cases i with
  | ccMsg c v => cases hop
  | usbMidiCcPkt c v => cases hop
  | usbInSysex k i a b c => cases hop
  | usbInRegularLo k i a b c => cases hop
  | usbInRegularHi k i a b c => cases hop
  | sample raw now => exact ⟨_, whenEnabled_of_ne_true hoff _⟩
  | serial => exact ⟨_, whenEnabled_of_ne_true hoff _⟩
  | push ok => exact ⟨_, whenEnabled_of_ne_true hoff _⟩
  | idle => exact ⟨_, whenEnabled_of_ne_true hoff _⟩
  | usbEvent kind => exact ⟨_, (exec_usbEvent kind s).trans (whenEnabled_of_ne_true hoff _)⟩
  | poll activity rx =>
    exact ⟨_, (exec_poll_of_presentableRead s hwf).trans (whenEnabled_of_ne_true hoff _)⟩
  | hostTake deliver => exact ⟨_, exec_hostTake_of_not_enabled deliver (mt (hostTakeEnabled_iff s).mpr hoff)⟩
  | bootDone => exact ⟨_, whenEnabled_of_ne_true hoff _⟩
  | bootFail => exact ⟨_, whenEnabled_of_ne_true hoff _⟩
  | reset => exact absurd rfl hoff

/-- Every condition of R70's table but RESET's asks for `BOOT` or `RUN`. -/
theorem eq_reset_of_enabled_of_halt {i : Instr} {s : State} (hhalt : s.mode = .halt)
    (hon : enabled i s = true) : i = .reset := by
  cases i with
  | ccMsg c v => cases hon
  | usbMidiCcPkt c v => cases hon
  | usbInSysex k i a b c => cases hon
  | usbInRegularLo k i a b c => cases hon
  | usbInRegularHi k i a b c => cases hon
  | sample raw now => simp [enabled, sampleEnabled_iff, hhalt] at hon
  | serial => simp [enabled, serialEnabled_iff, hhalt] at hon
  | push ok => simp [enabled, pushEnabled_iff, hhalt] at hon
  | idle => simp [enabled, idleEnabled_iff, hhalt] at hon
  | usbEvent kind => simp [enabled, usbEventEnabled_iff, hhalt] at hon
  | poll activity rx => simp [enabled, pollEnabled_iff, hhalt] at hon
  | hostTake deliver => simp [enabled, hostTakeEnabled_iff, hhalt] at hon
  | bootDone => simp [enabled, bootEnabled_iff, hhalt] at hon
  | bootFail => simp [enabled, bootEnabled_iff, hhalt] at hon
  | reset => rfl

/-! IDLE as an instruction. -/

theorem exec_idle_of_enabled {s : State} (hmode : s.mode = .run) : exec .idle s = .next s :=
  whenEnabled_next.mpr ⟨(idleEnabled_iff s).mpr hmode, rfl⟩

theorem exec_idle_of_not_enabled {s : State} (hmode : s.mode ≠ .run) :
    exec .idle s = .fault (.notEnabled .idle) :=
  whenEnabled_of_ne_true (mt (idleEnabled_iff s).mp hmode) _

/-! Runs of USB_EVENTs. -/

theorem runOps_append_of_next {is js : List Instr} {s u : State} (h : runOps is s = .next u) :
    runOps (is ++ js) s = runOps js u := by
  rw [runOps_append, h]

theorem runOps_singleton_of_next {i : Instr} {s u : State} (h : exec i s = .next u) :
    runOps [i] s = .next u :=
  runOps_cons_of_next h

/-- Once the bit is set, further events change nothing. -/
theorem runOps_usbEvents_of_pending (kinds : List UsbKind) {s : State} (h : s.mode = .boot ∨ s.mode = .run) :
    runOps (kinds.map .usbEvent) (s.setPend true) = .next (s.setPend true) := by
  induction kinds with
  | nil => rfl
  | cons kind kinds ih =>
    have hevent : exec (.usbEvent kind) (s.setPend true) = .next (s.setPend true) :=
      exec_usbEvent_of_enabled kind h
    rw [List.map_cons, runOps_cons_of_next hevent, ih]

/-- Any number of events, at least one, sets the one bit. -/
theorem runOps_usbEvents {kinds : List UsbKind} {s : State} (hne : kinds ≠ [])
    (h : s.mode = .boot ∨ s.mode = .run) : runOps (kinds.map .usbEvent) s = .next (s.setPend true) := by
  cases kinds with
  | nil => exact absurd rfl hne
  | cons kind kinds =>
    rw [List.map_cons, runOps_cons_of_next (exec_usbEvent_of_enabled kind h), runOps_usbEvents_of_pending kinds h]

end Sys2Proof.Machine

open Sys2Proof Sys2Proof.Machine

/-- Settles O34: the first event sets the bit, the others find it set, and the one poll clears it. -/
theorem onePollServesAllEvents : Obligations.OnePollServesAllEvents := by
  unfold Obligations.OnePollServesAllEvents
  intro s kinds activity rx hne hmode hirq hlen hidle
  have hevents : runOps (kinds.map .usbEvent) s = .next (s.setPend true) := runOps_usbEvents hne (.inr hmode)
  have hpoll : exec (.poll activity rx) (s.setPend true) = .next (s.setPend false) :=
    exec_poll_of_enabled (presentableRead_iff.mpr ⟨hlen, hidle⟩) ⟨hmode, hirq, setPend_usbPend s true⟩
  refine ⟨hevents, ?_⟩
  rw [runOps_append_of_next hevents]
  exact runOps_singleton_of_next hpoll

/-- Settles O6: in `HALT` an enabled operation is RESET, so any other one has no step, and `resetBlock` clears the
fault and keeps the logs. -/
theorem faultsAreStickyUntilReset : Obligations.FaultsAreStickyUntilReset := by
  unfold Obligations.FaultsAreStickyUntilReset
  refine ⟨fun code s => rfl, fun s i hhalt hop hwf hne => ?noStep, fun s t ht => ?cleared⟩
  case noStep => exact exec_of_not_enabled hop hwf (mt (eq_reset_of_enabled_of_halt hhalt) hne)
  case cleared =>
    obtain rfl := exec_reset_next.mp ht
    exact ⟨resetBlock_fault s, resetBlock_mode s, resetBlock_txq s, resetBlock_serOut s, resetBlock_hostIn s⟩

/-- Settles O17: IDLE's one condition is `RUN`, and its step is the state itself. -/
theorem idleChangesNothing : Obligations.IdleChangesNothing := by
  unfold Obligations.IdleChangesNothing
  exact fun s => ⟨exec_idle_of_enabled, exec_idle_of_not_enabled⟩

end

section
/-! The scan under fairness (70_reset_and_hazards.md R157, R158).  The producer's position is its channel and phase.  In
`RUN` only its working steps move it, each one position on around the scan, so the number of them before a channel is
sampled goes down; F1 supplies a working step as often as it is needed. -/

namespace Sys2Proof.Machine

/-! The position after one step. -/

/-- A SAMPLE stays at its channel when its rule emits, and finishes the channel when not (40_scan_debounce.md R78). -/
theorem sampleStep_scanCh (v : Sample) (now : Time) (s : State) :
    (sampleStep v now s).scanCh = if emitsAt s s.scanCh v now then s.scanCh else s.scanCh + 1 := by
  rcases sampleStep_cases v now s with ⟨hv, e⟩ | ⟨hv, hi, e⟩ | ⟨hv, hi, e⟩ <;> rw [e]
  · simp [emitsAt, debounce, hv]
  · simp [emitsAt, debounce, hv, hi]
  · simp [emitsAt, debounce, hv, hi]

@[simp] theorem serialMessage_scanCh (m : List Byte) (s : State) : (serialMessage m s).scanCh = s.scanCh := by
  rw [serialMessage_any]

/-- A PUSH that does not halt the block finishes the channel, whether it appends or drops. -/
theorem pushStep_scanCh {depth : Nat} {ok : Bool} {s : State} (h : (pushStep depth ok s).mode = .run) :
    (pushStep depth ok s).scanCh = s.scanCh + 1 := by
  cases hf : frame s.pMsg with
  | ok p =>
    rw [pushStep_of_frame depth ok hf]
    rcases pushOrDrop_cases depth ok p s with ⟨_, _, e⟩ | ⟨_, e⟩ <;> simp [e]
  | error code => simp [pushStep_of_frame_error depth ok hf] at h

/-- Everything a working step that stays in `RUN` can do to the position. -/
theorem producerWork_position_cases {i : Instr} {s t : State} (hi : isProducerWork i = true)
    (h : exec i s = .next t) (hrun : t.mode = .run) :
    ((∃ raw now, i = .sample raw now) ∧ s.pPhase = .sample ∧
      (t.pPhase = .serial ∧ t.scanCh = s.scanCh ∨ t.pPhase = .sample ∧ t.scanCh = s.scanCh + 1)) ∨
    (s.pPhase = .serial ∧ t.pPhase = .push ∧ t.scanCh = s.scanCh) ∨
    (s.pPhase = .push ∧ t.pPhase = .sample ∧ t.scanCh = s.scanCh + 1) := by
  rcases isProducerWork_cases hi with ⟨raw, now, rfl⟩ | rfl | ⟨ok, rfl⟩
  · obtain ⟨hen, rfl⟩ := whenEnabled_next.mp h
    refine .inl ⟨⟨raw, now, rfl⟩, ((sampleEnabled_iff s).mp hen).2, ?_⟩
    rw [sampleStep_pPhase, sampleStep_scanCh]
    cases emitsAt s s.scanCh (downscale raw) now
    · exact .inr ⟨rfl, rfl⟩
    · exact .inl ⟨rfl, rfl⟩
  · obtain ⟨hen, rfl⟩ := whenEnabled_next.mp h
    exact .inr (.inl ⟨((serialEnabled_iff s).mp hen).2, rfl, serialMessage_scanCh s.pMsg s⟩)
  · obtain ⟨hen, rfl⟩ := whenEnabled_next.mp h
    exact .inr (.inr ⟨((pushEnabled_iff s).mp hen).2, pushStep_pPhase hrun, pushStep_scanCh hrun⟩)

/-- Besides the working steps only RESET writes the position, and it leaves `RUN`. -/
theorem exec_keeps_position {i : Instr} {s t : State} (hi : isProducerWork i = false)
    (h : exec i s = .next t) (hrun : t.mode = .run) : t.pPhase = s.pPhase ∧ t.scanCh = s.scanCh := by
  rcases exec_next_cases h with ⟨r, _, rfl⟩ | ⟨raw, now, rfl, _, _⟩ | ⟨rfl, _, _⟩ | ⟨ok, rfl, _, _⟩ |
    ⟨_, _, rfl⟩ | ⟨k, _, _, rfl⟩ | ⟨a, rx, _, _, rfl⟩ | ⟨p, rest, _, _, _, rfl⟩ | ⟨p, rest, _, _, _, rfl⟩ |
    ⟨_, _, rfl⟩ | ⟨_, _, rfl⟩ | ⟨_, rfl⟩
  · exact ⟨rfl, rfl⟩
  · cases hi
  · cases hi
  · cases hi
  · exact ⟨rfl, rfl⟩
  · exact ⟨rfl, rfl⟩
  · exact ⟨rfl, rfl⟩
  · exact ⟨rfl, rfl⟩
  · exact ⟨rfl, rfl⟩
  · exact ⟨rfl, rfl⟩
  · exact ⟨rfl, rfl⟩
  · cases hrun

/-! How far a channel's next SAMPLE is. -/

/-- The most working steps the producer takes before it samples channel `c`: three for each channel before `c`, less
those already taken for the channel it stands at. -/
def stepsUntilSampled (c : Chan) (s : State) : Nat :=
  match s.pPhase with
  | .sample => 3 * (c - s.scanCh).toNat
  | .serial => 3 * (c - (s.scanCh + 1)).toNat + 2
  | .push => 3 * (c - (s.scanCh + 1)).toNat + 1

theorem stepsUntilSampled_sample (c : Chan) {s : State} (h : s.pPhase = .sample) :
    stepsUntilSampled c s = 3 * (c - s.scanCh).toNat := by
  rw [stepsUntilSampled, h]

theorem stepsUntilSampled_serial (c : Chan) {s : State} (h : s.pPhase = .serial) :
    stepsUntilSampled c s = 3 * (c - (s.scanCh + 1)).toNat + 2 := by
  rw [stepsUntilSampled, h]

theorem stepsUntilSampled_push (c : Chan) {s : State} (h : s.pPhase = .push) :
    stepsUntilSampled c s = 3 * (c - (s.scanCh + 1)).toNat + 1 := by
  rw [stepsUntilSampled, h]

theorem stepsUntilSampled_congr (c : Chan) {s t : State} (h : t.pPhase = s.pPhase ∧ t.scanCh = s.scanCh) :
    stepsUntilSampled c t = stepsUntilSampled c s := by
  rw [stepsUntilSampled, stepsUntilSampled, h.1, h.2]

/-- Around the sixteen channels, the one after `a` is one nearer to `c`, unless `a` is `c`. -/
theorem toNat_sub_succ {a c : Chan} (h : a ≠ c) : (c - a).toNat = (c - (a + 1)).toNat + 1 := by
  bv_omega

/-- A working step samples channel `c` or comes nearer to doing so. -/
theorem producerWork_samples_or_nearer (c : Chan) {i : Instr} {s t : State} (hi : isProducerWork i = true)
    (h : exec i s = .next t) (hrun : t.mode = .run) :
    (s.scanCh = c ∧ ∃ raw now, i = .sample raw now) ∨ stepsUntilSampled c t < stepsUntilSampled c s := by
  rcases producerWork_position_cases hi h hrun with
    ⟨hsample, hs, ht⟩ | ⟨hs, ht, hch⟩ | ⟨hs, ht, hch⟩
  · by_cases hc : s.scanCh = c
    · exact .inl ⟨hc, hsample⟩
    · right
      rw [stepsUntilSampled_sample c hs, toNat_sub_succ hc]
      rcases ht with ⟨ht, hch⟩ | ⟨ht, hch⟩
      · rw [stepsUntilSampled_serial c ht, hch]
        omega
      · rw [stepsUntilSampled_sample c ht, hch]
        omega
  · right
    rw [stepsUntilSampled_serial c hs, stepsUntilSampled_push c ht, hch]
    omega
  · right
    rw [stepsUntilSampled_push c hs, stepsUntilSampled_sample c ht, hch]
    omega

/-! Along a run that stays in `RUN`. -/

section
variable {r : Run} {n : Nat}

/-- The distance is what it was until the producer works. -/
theorem Run.stepsUntilSampled_of_no_work (hok : r.Ok) (hrun : r.StaysRunning n) (c : Chan) {m k : Nat}
    (hm : n ≤ m) (hmk : m ≤ k) (hidle : ∀ j, m ≤ j → j < k → isProducerWork (r.op j) = false) :
    stepsUntilSampled c (r.at_ k) = stepsUntilSampled c (r.at_ m) := by
  induction k, hmk using Nat.le_induction with
  | base => rfl
  | succ k hmk ih =>
    have hnow : isProducerWork (r.op k) = false := hidle k hmk (Nat.lt_succ_self k)
    have hbefore : ∀ j, m ≤ j → j < k → isProducerWork (r.op j) = false :=
      fun j hmj hjk => hidle j hmj (Nat.lt_succ_of_lt hjk)
    have hnext : (r.at_ (k + 1)).mode = .run := hrun (k + 1) (by omega)
    exact (stepsUntilSampled_congr c (exec_keeps_position hnow (hok k).2 hnext)).trans (ih hbefore)

/-- Under F1 each time has a first working step from it on. -/
theorem Run.F1.exists_first_work (hF1 : r.F1) (hrun : r.StaysRunning n) {m : Nat} (hm : n ≤ m) :
    ∃ k, m ≤ k ∧ isProducerWork (r.op k) = true ∧
      ∀ j, m ≤ j → j < k → isProducerWork (r.op j) = false := by
  have hwork := hF1 n hrun m hm
  obtain ⟨hmk, hk⟩ := Nat.find_spec hwork
  refine ⟨Nat.find hwork, hmk, hk, fun j hmj hj => ?_⟩
  have hnot := Nat.find_min hwork hj
  simpa [hmj] using hnot

/-- From any time on channel `c` is sampled: the first working step samples it, or leaves a smaller distance. -/
theorem Run.exists_sample_from (hok : r.Ok) (hrun : r.StaysRunning n) (hF1 : r.F1) (c : Chan) {m : Nat}
    (hm : n ≤ m) : ∃ k, m ≤ k ∧ (r.at_ k).scanCh = c ∧ ∃ raw now, r.op k = .sample raw now := by
  induction hd : stepsUntilSampled c (r.at_ m) using Nat.strong_induction_on generalizing m with
  | h d ih =>
    obtain ⟨k, hmk, hwork, hidle⟩ := hF1.exists_first_work hrun hm
    have hkept : stepsUntilSampled c (r.at_ k) = d :=
      (Run.stepsUntilSampled_of_no_work hok hrun c hm hmk hidle).trans hd
    have hnext : (r.at_ (k + 1)).mode = .run := hrun (k + 1) (by omega)
    rcases producerWork_samples_or_nearer c hwork (hok k).2 hnext with ⟨hc, hsample⟩ | hnearer
    · exact ⟨k, hmk, hc, hsample⟩
    · obtain ⟨l, hkl, hl⟩ := ih _ (hkept ▸ hnearer) (by omega : n ≤ k + 1) rfl
      exact ⟨l, by omega, hl⟩

end

end Sys2Proof.Machine

open Sys2Proof.Machine

/-- Settles O51: from any time on, and so from one at which the run has come to stay in `RUN`, every channel is
sampled. -/
theorem everyChannelIsSampledForever : Obligations.EveryChannelIsSampledForever := by
  unfold Obligations.EveryChannelIsSampledForever
  intro r n hok hrun hF1 c m
  obtain ⟨k, hk, hsample⟩ := Run.exists_sample_from hok hrun hF1 c (le_max_left n m)
  exact ⟨k, (le_max_right n m).trans hk, hsample⟩

end

section
/-! Reset, boot and the way out of `HALT` (70_reset_and_hazards.md R141, R144, R145). -/

namespace Sys2Proof.Machine

/-! In `HALT` only RESET completes. -/

/-- An operation that completes has operands that can stand at their ports: POLL refuses any other read. -/
theorem wellFormed_of_exec_next {i : Instr} {s t : State} (hop : isOperation i = true)
    (h : exec i s = .next t) : wellFormed i = true := by
  cases i with
  | ccMsg c v => cases hop
  | usbMidiCcPkt c v => cases hop
  | poll activity rx =>
    simp only [exec, execPoll] at h
    split at h
    · assumption
    · cases h
  | _ => rfl

theorem enabled_of_exec_next {i : Instr} {s t : State} (hop : isOperation i = true)
    (h : exec i s = .next t) : enabled i s = true :=
  (exec_completes_iff_enabled s hop (wellFormed_of_exec_next hop h)).mp ⟨t, h⟩

/-- RESET is the only way out of `HALT` (60_exceptions.md R124). -/
theorem eq_reset_of_exec_next_of_halt {i : Instr} {s t : State} (hhalt : s.mode = .halt)
    (hop : isOperation i = true) (h : exec i s = .next t) : i = .reset :=
  eq_reset_of_enabled_of_halt hhalt (enabled_of_exec_next hop h)

/-! BOOT_DONE and BOOT_FAIL as instructions. -/

theorem exec_bootDone_of_enabled {s : State} (hboot : s.mode = .boot) :
    exec .bootDone s = .next (s.enableIrq.setMode .run) :=
  whenEnabled_next.mpr ⟨(bootEnabled_iff s).mpr hboot, rfl⟩

theorem exec_bootDone_of_not_enabled {s : State} (hboot : s.mode ≠ .boot) :
    exec .bootDone s = .fault (.notEnabled .bootDone) :=
  whenEnabled_of_ne_true (mt (bootEnabled_iff s).mp hboot) _

theorem exec_bootDone_next {s t : State} (h : exec .bootDone s = .next t) :
    s.mode = .boot ∧ t = s.enableIrq.setMode .run := by
  obtain ⟨hon, ht⟩ := whenEnabled_next.mp h
  exact ⟨(bootEnabled_iff s).mp hon, ht.symm⟩

theorem exec_bootFail_of_enabled {s : State} (hboot : s.mode = .boot) :
    exec .bootFail s = .next (raiseFault .initFail s) :=
  whenEnabled_next.mpr ⟨(bootEnabled_iff s).mpr hboot, rfl⟩

theorem exec_bootFail_of_not_enabled {s : State} (hboot : s.mode ≠ .boot) :
    exec .bootFail s = .fault (.notEnabled .bootFail) :=
  whenEnabled_of_ne_true (mt (bootEnabled_iff s).mp hboot) _

theorem exec_bootFail_next {s t : State} (h : exec .bootFail s = .next t) : t = raiseFault .initFail s :=
  (whenEnabled_next.mp h).2.symm

end Sys2Proof.Machine

open Sys2Proof.Machine

/-- Settles O1: RESET's one outcome is `resetBlock`, whose fields are those listed, and in `HALT` no other operation
is enabled. -/
theorem resetRestoresTheBlock : Obligations.ResetRestoresTheBlock := by
  unfold Obligations.ResetRestoresTheBlock
  refine fun s => ⟨⟨resetBlock s, exec_reset s, fun c => ?knob, ?listed⟩, fun hhalt i t hop h => ?onlyReset⟩
  case knob => rw [knob_resetBlock, knob_reset_eq]
  case listed => exact ⟨rfl, rfl, rfl, rfl, rfl, rfl, rfl, resetBlock_serOut s, resetBlock_hostIn s⟩
  case onlyReset => exact eq_reset_of_exec_next_of_halt hhalt hop h

/-- Settles O4: the one condition is `BOOT`, where the invariant has the producer at its start, which BOOT_DONE does
not move. -/
theorem bootDoneStartsRunning : Obligations.BootDoneStartsRunning := by
  unfold Obligations.BootDoneStartsRunning
  refine fun s => ⟨exec_bootDone_of_enabled, exec_bootDone_of_not_enabled, fun hinv t h => ?_⟩
  obtain ⟨hboot, rfl⟩ := exec_bootDone_next h
  obtain ⟨_, _, _, hphase, hch⟩ := hinv.boot hboot
  exact ⟨hch, hphase⟩

/-- Settles O5: the one condition is `BOOT`, and the fault leaves the block in `HALT`, where only RESET completes. -/
theorem bootFailHaltsTheBlock : Obligations.BootFailHaltsTheBlock := by
  unfold Obligations.BootFailHaltsTheBlock
  refine fun s => ⟨exec_bootFail_of_enabled, exec_bootFail_of_not_enabled, rfl, fun t ht i u hop h => ?_⟩
  obtain rfl := exec_bootFail_next ht
  exact eq_reset_of_exec_next_of_halt (raiseFault_mode s .initFail) hop h

end

section
/-! The frame of every instruction (10_state.md R33).  What the three producer steps leave unchanged, field by
field; the other instructions are single updates of Machine/Ops.lean, whose fields Laws/State.lean gives. -/

namespace Sys2Proof.Machine

/-! SAMPLE. -/

section
variable (v : Sample) (now : Time) (s : State)

@[simp] theorem sampleStep_usbPend : (sampleStep v now s).usbPend = s.usbPend := by
  rcases sampleStep_cases v now s with ⟨_, e⟩ | ⟨_, _, e⟩ | ⟨_, _, e⟩ <;> simp [e]

@[simp] theorem sampleStep_irqEn : (sampleStep v now s).irqEn = s.irqEn := by
  rcases sampleStep_cases v now s with ⟨_, e⟩ | ⟨_, _, e⟩ | ⟨_, _, e⟩ <;> simp [e]

@[simp] theorem sampleStep_mode : (sampleStep v now s).mode = s.mode := by
  rcases sampleStep_cases v now s with ⟨_, e⟩ | ⟨_, _, e⟩ | ⟨_, _, e⟩ <;> simp [e]

@[simp] theorem sampleStep_fault : (sampleStep v now s).fault = s.fault := by
  rcases sampleStep_cases v now s with ⟨_, e⟩ | ⟨_, _, e⟩ | ⟨_, _, e⟩ <;> simp [e]

@[simp] theorem sampleStep_serOut : (sampleStep v now s).serOut = s.serOut := by
  rcases sampleStep_cases v now s with ⟨_, e⟩ | ⟨_, _, e⟩ | ⟨_, _, e⟩ <;> simp [e]

@[simp] theorem sampleStep_script : (sampleStep v now s).script = s.script := by
  rcases sampleStep_cases v now s with ⟨_, e⟩ | ⟨_, _, e⟩ | ⟨_, _, e⟩ <;> simp [e]

@[simp] theorem sampleStep_tick : (sampleStep v now s).tick = s.tick := by
  rcases sampleStep_cases v now s with ⟨_, e⟩ | ⟨_, _, e⟩ | ⟨_, _, e⟩ <;> simp [e]

@[simp] theorem sampleStep_fmtOut : (sampleStep v now s).fmtOut = s.fmtOut := by
  rcases sampleStep_cases v now s with ⟨_, e⟩ | ⟨_, _, e⟩ | ⟨_, _, e⟩ <;> simp [e]

/-- A SAMPLE writes at most the knob of the channel the scan stands at (40_scan_debounce.md R82). -/
theorem knob_sampleStep_other {c : Chan} (h : c ≠ s.scanCh) : (sampleStep v now s).knob c = s.knob c := by
  rcases sampleStep_cases v now s with ⟨_, e⟩ | ⟨_, _, e⟩ | ⟨_, _, e⟩ <;> rw [e]
  · rfl
  · rw [knob_congr (finishChannel_knobs _), knob_setKnob_other _ _ h, knob_muxSelect]
  · rw [knob_congr (setPhase_knobs _ _), knob_congr (setMsg_knobs _ _), knob_setKnob_other _ _ h, knob_muxSelect]

end

/-! SERIAL. -/

section
variable (m : List Byte) (s : State)

@[simp] theorem serialMessage_knobs : (serialMessage m s).knobs = s.knobs := by rw [serialMessage_any]
@[simp] theorem serialMessage_pMsg : (serialMessage m s).pMsg = s.pMsg := by rw [serialMessage_any]
@[simp] theorem serialMessage_usbPend : (serialMessage m s).usbPend = s.usbPend := by rw [serialMessage_any]
@[simp] theorem serialMessage_irqEn : (serialMessage m s).irqEn = s.irqEn := by rw [serialMessage_any]
@[simp] theorem serialMessage_mode : (serialMessage m s).mode = s.mode := by rw [serialMessage_any]
@[simp] theorem serialMessage_fault : (serialMessage m s).fault = s.fault := by rw [serialMessage_any]
@[simp] theorem serialMessage_muxSel : (serialMessage m s).muxSel = s.muxSel := by rw [serialMessage_any]
@[simp] theorem serialMessage_script : (serialMessage m s).script = s.script := by rw [serialMessage_any]
@[simp] theorem serialMessage_tick : (serialMessage m s).tick = s.tick := by rw [serialMessage_any]
@[simp] theorem serialMessage_fmtOut : (serialMessage m s).fmtOut = s.fmtOut := by rw [serialMessage_any]

end

/-! PUSH. -/

/-- Everything a PUSH step can do: queue the packet, drop it, or raise `PKT_SIZE` (42_sender_cdc.md R100). -/
theorem pushStep_cases (depth : Nat) (ok : Bool) (s : State) :
    (∃ p, frame s.pMsg = .ok p ∧ s.txq.length < depth ∧ ok = true ∧
      pushStep depth ok s = (s.fifoPush p).finishChannel) ∨
    (∃ p, frame s.pMsg = .ok p ∧ ¬(s.txq.length < depth ∧ ok = true) ∧ pushStep depth ok s = s.finishChannel) ∨
    (s.pMsg.length ≠ 3 ∧ pushStep depth ok s = raiseFault .pktSize s) := by
  by_cases hlen : s.pMsg.length = 3
  · obtain ⟨a, b, c, hmsg⟩ := List.length_eq_three.mp hlen
    have hframe := frame_of_eq_three hmsg
    rcases pushOrDrop_cases depth ok _ s with ⟨hroom, hok, e⟩ | ⟨hfull, e⟩
    · exact .inl ⟨_, hframe, hroom, hok, by rw [pushStep_of_frame depth ok hframe, e]⟩
    · exact .inr (.inl ⟨_, hframe, hfull, by rw [pushStep_of_frame depth ok hframe, e]⟩)
  · exact .inr (.inr ⟨hlen, pushStep_of_frame_error depth ok (frame_error hlen)⟩)

section
variable (depth : Nat) (ok : Bool) (s : State)

@[simp] theorem pushStep_knobs : (pushStep depth ok s).knobs = s.knobs := by
  rcases pushStep_cases depth ok s with ⟨_, _, _, _, e⟩ | ⟨_, _, _, e⟩ | ⟨_, e⟩ <;> simp [e]

@[simp] theorem pushStep_pMsg : (pushStep depth ok s).pMsg = s.pMsg := by
  rcases pushStep_cases depth ok s with ⟨_, _, _, _, e⟩ | ⟨_, _, _, e⟩ | ⟨_, e⟩ <;> simp [e]

@[simp] theorem pushStep_usbPend : (pushStep depth ok s).usbPend = s.usbPend := by
  rcases pushStep_cases depth ok s with ⟨_, _, _, _, e⟩ | ⟨_, _, _, e⟩ | ⟨_, e⟩ <;> simp [e]

@[simp] theorem pushStep_irqEn : (pushStep depth ok s).irqEn = s.irqEn := by
  rcases pushStep_cases depth ok s with ⟨_, _, _, _, e⟩ | ⟨_, _, _, e⟩ | ⟨_, e⟩ <;> simp [e]

@[simp] theorem pushStep_serOut : (pushStep depth ok s).serOut = s.serOut := by
  rcases pushStep_cases depth ok s with ⟨_, _, _, _, e⟩ | ⟨_, _, _, e⟩ | ⟨_, e⟩ <;> simp [e]

@[simp] theorem pushStep_muxSel : (pushStep depth ok s).muxSel = s.muxSel := by
  rcases pushStep_cases depth ok s with ⟨_, _, _, _, e⟩ | ⟨_, _, _, e⟩ | ⟨_, e⟩ <;> simp [e]

@[simp] theorem pushStep_script : (pushStep depth ok s).script = s.script := by
  rcases pushStep_cases depth ok s with ⟨_, _, _, _, e⟩ | ⟨_, _, _, e⟩ | ⟨_, e⟩ <;> simp [e]

@[simp] theorem pushStep_tick : (pushStep depth ok s).tick = s.tick := by
  rcases pushStep_cases depth ok s with ⟨_, _, _, _, e⟩ | ⟨_, _, _, e⟩ | ⟨_, e⟩ <;> simp [e]

@[simp] theorem pushStep_fmtOut : (pushStep depth ok s).fmtOut = s.fmtOut := by
  rcases pushStep_cases depth ok s with ⟨_, _, _, _, e⟩ | ⟨_, _, _, e⟩ | ⟨_, e⟩ <;> simp [e]

end

/-- A SAMPLE moves the scan, if at all, to the next channel. -/
theorem sampleStep_scanCh_of_ne {v : Sample} {now : Time} {s : State}
    (h : (sampleStep v now s).scanCh ≠ s.scanCh) : (sampleStep v now s).scanCh = s.scanCh + 1 := by
  rw [sampleStep_scanCh] at h ⊢
  split
  · next hemit => exact absurd (if_pos hemit) h
  · rfl

/-- A PUSH moves the scan, if at all, to the next channel. -/
theorem pushStep_scanCh_of_ne {depth : Nat} {ok : Bool} {s : State}
    (h : (pushStep depth ok s).scanCh ≠ s.scanCh) : (pushStep depth ok s).scanCh = s.scanCh + 1 := by
  rcases pushStep_cases depth ok s with ⟨_, _, _, _, e⟩ | ⟨_, _, _, e⟩ | ⟨_, e⟩
  · rw [e, finishChannel_scanCh, fifoPush_scanCh]
  · rw [e, finishChannel_scanCh]
  · exact absurd (by rw [e, raiseFault_scanCh]) h

/-- A PUSH touches mode and fault only by raising `PKT_SIZE` on a message it cannot frame (60_exceptions.md R123).
-/
theorem pushStep_faults_of_ne {depth : Nat} {ok : Bool} {s : State}
    (h : (pushStep depth ok s).mode ≠ s.mode ∨ (pushStep depth ok s).fault ≠ s.fault) :
    s.pMsg.length ≠ 3 ∧ (pushStep depth ok s).fault = some .pktSize := by
  rcases pushStep_cases depth ok s with ⟨_, _, _, _, e⟩ | ⟨_, _, _, e⟩ | ⟨hlen, e⟩
  · simp [e] at h
  · simp [e] at h
  · exact ⟨hlen, by rw [e, raiseFault_fault]⟩

/-! The queue's length. -/

/-- What an instruction pushes: nothing, or, at a PUSH that reports success at a queue with room, one packet. -/
theorem pushedBy_cases (i : Instr) (s : State) :
    pushedBy i s = [] ∨ (i = .push true ∧ s.txq.length < Config.usbTxDepth ∧ ∃ p, pushedBy i s = [p]) := by
  by_cases hpush : ∃ ok, i = .push ok
  · obtain ⟨ok, rfl⟩ := hpush
    cases hf : frame s.pMsg with
    | error e => exact .inl (pushedBy_push_of_frame_error ok hf)
    | ok p =>
      rw [pushedBy_push_of_frame ok hf]
      by_cases hroom : s.txq.length < Config.usbTxDepth <;> cases ok <;> simp [hroom]
  · exact .inl (pushedBy_of_ne_push (not_exists.mp hpush) s)

end Sys2Proof.Machine

open Sys2Proof.Machine

/-- Settles O38: each of the twelve things an instruction can be is an update whose fields are known. -/
theorem eachOperationWritesOnlyItsState : Obligations.EachOperationWritesOnlyItsState := by
  unfold Obligations.EachOperationWritesOnlyItsState
  intro i s t h
  rcases exec_next_cases h with ⟨r, hop, rfl⟩ | ⟨raw, now, rfl, _, rfl⟩ | ⟨rfl, _, rfl⟩ | ⟨ok, rfl, _, rfl⟩ |
    ⟨rfl, _, rfl⟩ | ⟨k, rfl, _, rfl⟩ | ⟨a, rx, rfl, _, rfl⟩ | ⟨p, rest, rfl, _, _, rfl⟩ |
    ⟨p, rest, rfl, _, _, rfl⟩ | ⟨rfl, _, rfl⟩ | ⟨rfl, _, rfl⟩ | ⟨rfl, rfl⟩
  · simp [hop]
  · simpa [isProducerWork] using sampleStep_scanCh_of_ne
  · simp [isProducerWork]
  · simpa [isProducerWork] using And.intro pushStep_scanCh_of_ne pushStep_faults_of_ne
  all_goals simp

/-- Settles O2: RESET's one outcome is `resetBlock`, which writes none of these. -/
theorem resetKeepsTheRest : Obligations.ResetKeepsTheRest := by
  unfold Obligations.ResetKeepsTheRest
  intro s t h
  obtain rfl := exec_reset_next.mp h
  exact ⟨resetBlock_pMsg s, resetBlock_chanMap s, resetBlock_muxSel s, resetBlock_script s, resetBlock_tick s,
    resetBlock_fmtOut s⟩

/-- Settles O8: all three outcomes of `sampleStep` have this frame. -/
theorem sampleTouchesOneKnob : Obligations.SampleTouchesOneKnob := by
  unfold Obligations.SampleTouchesOneKnob
  intro s t raw now h
  obtain rfl := exec_sample_next h
  exact ⟨fun c hc => knob_sampleStep_other _ now s hc, by simp⟩

/-- Settles O36: the queue takes one packet at a successful PUSH with room, loses its head at HOST_TAKE, is emptied
at RESET, and is otherwise kept. -/
theorem queueLengthChangesByOne : Obligations.QueueLengthChangesByOne := by
  unfold Obligations.QueueLengthChangesByOne
  intro s t i h
  rcases exec_txq_hostIn_cases h with ⟨_, hq⟩ | ⟨d, p, rfl, hq, _⟩ | ⟨rfl, _, hq⟩
  · rcases pushedBy_cases i s with hnone | ⟨rfl, hroom, p, hp⟩
    · simp [hq, hnone]
    · have hlen : t.txq.length = s.txq.length + 1 := by rw [hq, hp, List.length_append, List.length_singleton]
      exact ⟨fun _ => by omega, fun _ => ⟨rfl, hlen⟩, fun hless => by omega⟩
  · have hlen : s.txq.length = t.txq.length + 1 := by rw [hq, List.length_cons]
    exact ⟨fun _ => by omega, fun hmore => by omega, fun _ => .inl ⟨d, rfl, hlen.symm⟩⟩
  · simp [hq]

end

section
/-! Decoding after encoding (30_encoding.md R56, R57, R60, R63, R72).  Each operand is read back from its own place:
a data byte, the bits of an inbound header, a literal of a trace line. -/

namespace Sys2Proof.Machine

/-! The outbound formats. -/

/-- The two data bytes of a message are read back from the pattern of CC_MSG (R57). -/
theorem ccFields_dataByte (c v : BitVec 7) : ccFields ccStatus (dataByte c) (dataByte v) = some (c, v) := by
  rw [ccFields, if_pos ⟨rfl, msb_dataByte c, msb_dataByte v⟩, dataField_dataByte, dataField_dataByte]

theorem decode_encode_ccMsg (c v : BitVec 7) : decode (encode (.ccMsg c v)) = .ok (.ccMsg c v) := by
  simp only [encode, decode, decodeBytes, ccFields_dataByte]

theorem decode_encode_usbMidiCcPkt (c v : BitVec 7) :
    decode (encode (.usbMidiCcPkt c v)) = .ok (.usbMidiCcPkt c v) := by
  simp only [encode, decode, decodeBytes, ccFields_dataByte, if_true]

/-! The inbound rows: a header is taken apart into its cable number, the bits its row fixes and the rest (R63). -/

theorem decodeInbound_sysex (k : BitVec 4) (i : BitVec 2) (a b c : Byte) :
    decodeInbound ⟨k ++ (0b01#2 ++ i), a, b, c⟩ = .usbInSysex k i a b c := by
  have h3 : (k ++ (0b01#2 ++ i)).getLsbD 3 = false := by revert k i; decide
  have h2 : (k ++ (0b01#2 ++ i)).getLsbD 2 = true := by revert k i; decide
  have hk : (k ++ (0b01#2 ++ i)).extractLsb' 4 4 = k := BitVec.extractLsb'_append_eq_left
  have hi : (k ++ (0b01#2 ++ i)).extractLsb' 0 2 = i := by revert k i; decide
  simp only [decodeInbound, cableOf, h3, h2, hk, hi, if_true, Bool.false_eq_true, if_false]

theorem decodeInbound_regularLo (k : BitVec 4) (i : BitVec 2) (a b c : Byte) :
    decodeInbound ⟨k ++ (0b00#2 ++ i), a, b, c⟩ = .usbInRegularLo k i a b c := by
  have h3 : (k ++ (0b00#2 ++ i)).getLsbD 3 = false := by revert k i; decide
  have h2 : (k ++ (0b00#2 ++ i)).getLsbD 2 = false := by revert k i; decide
  have hk : (k ++ (0b00#2 ++ i)).extractLsb' 4 4 = k := BitVec.extractLsb'_append_eq_left
  have hi : (k ++ (0b00#2 ++ i)).extractLsb' 0 2 = i := by revert k i; decide
  simp only [decodeInbound, cableOf, h3, h2, hk, hi, Bool.false_eq_true, if_false]

theorem decodeInbound_regularHi (k : BitVec 4) (i : BitVec 3) (a b c : Byte) :
    decodeInbound ⟨k ++ (1#1 ++ i), a, b, c⟩ = .usbInRegularHi k i a b c := by
  have h3 : (k ++ (1#1 ++ i)).getLsbD 3 = true := by revert k i; decide
  have hk : (k ++ (1#1 ++ i)).extractLsb' 4 4 = k := BitVec.extractLsb'_append_eq_left
  have hi : (k ++ (1#1 ++ i)).extractLsb' 0 3 = i := by revert k i; decide
  simp only [decodeInbound, cableOf, h3, hk, hi, if_true]

/-- Four bytes on the OUT endpoint are one inbound packet. -/
theorem decode_usbOut (h a b c : Byte) : decode (.bytes .usbOut [h, a, b, c]) = .ok (decodeInbound ⟨h, a, b, c⟩) :=
  rfl

/-! The literals of a trace line (R72). -/

@[simp] theorem bitOf_toNat (b : Bool) : bitOf b.toNat = some b := by
  cases b <;> rfl

theorem bytesOf_map_toNat (bs : List Byte) : bytesOf (bs.map BitVec.toNat) = some bs := by
  have hall : ((bs.map BitVec.toNat).all (· < 256)) = true := by
    simp only [List.all_map, List.all_eq_true, Function.comp_apply, decide_eq_true_eq]
    exact fun b _ => b.isLt
  rw [bytesOf, if_pos hall, List.map_map]
  simp [Function.comp_def]

theorem pollOf_toNat {activity : Bool} {rx : List Byte} (h : presentableRead activity rx = true) :
    pollOf activity.toNat (rx.map BitVec.toNat) = some (.poll activity rx) := by
  simp only [pollOf, bitOf_toNat, bytesOf_map_toNat, h, if_true]

theorem sampleOfRaw_toNat (raw : BitVec Config.adcBits) (now : Time) :
    sampleOfRaw raw.toNat now.toNat = some (.sample raw now) := by
  rw [sampleOfRaw, if_pos ⟨raw.isLt, now.isLt⟩, BitVec.ofNat_toNat, BitVec.ofNat_toNat, BitVec.setWidth_eq,
    BitVec.setWidth_eq]

theorem sampleOfScaled_toNat (v : Sample) (now : Time) :
    sampleOfScaled v.toNat now.toNat = some (.sample (rawOfSample v) now) := by
  rw [sampleOfScaled, if_pos ⟨v.isLt, now.isLt⟩, BitVec.ofNat_toNat, BitVec.ofNat_toNat, BitVec.setWidth_eq,
    BitVec.setWidth_eq]

/-! The operations whose draws are written as literals. -/

theorem decode_encode_sample (raw : BitVec Config.adcBits) (now : Time) :
    decode (encode (.sample raw now)) = .ok (.sample raw now) := by
  simp only [encode, decode, decodeLine, sampleOfRaw_toNat, inRange]

theorem decode_encode_push (ok : Bool) : decode (encode (.push ok)) = .ok (.push ok) := by
  simp only [encode, decode, decodeLine, bitLit, bitOf_toNat, Option.map_some, inRange]

theorem decode_encode_hostTake (deliver : Bool) :
    decode (encode (.hostTake deliver)) = .ok (.hostTake deliver) := by
  simp only [encode, decode, decodeLine, bitLit, bitOf_toNat, Option.map_some, inRange]

theorem decode_encode_poll {activity : Bool} {rx : List Byte} (h : presentableRead activity rx = true) :
    decode (encode (.poll activity rx)) = .ok (.poll activity rx) := by
  simp only [encode, decode, decodeLine, bitLit, pollOf_toNat h, inRange]

theorem decode_sampleLine (v : Sample) (now : Time) :
    decode (.line (sampleLine v now)) = .ok (.sample (rawOfSample v) now) := by
  simp only [sampleLine, decode, decodeLine, sampleOfScaled_toNat, inRange]

end Sys2Proof.Machine

open Sys2Proof Sys2Proof.Machine

/-- Settles O28: row by row, each operand is read back from its place; a poll's read is the one operand whose width
is not its type's. -/
theorem decodeOfEncodeIsTheInstruction : Obligations.DecodeOfEncodeIsTheInstruction := by
  unfold Obligations.DecodeOfEncodeIsTheInstruction
  intro i hwf
  cases i with
  | ccMsg c v => exact decode_encode_ccMsg c v
  | usbMidiCcPkt c v => exact decode_encode_usbMidiCcPkt c v
  | usbInSysex k i a b c => rw [encode, decode_usbOut, decodeInbound_sysex]
  | usbInRegularLo k i a b c => rw [encode, decode_usbOut, decodeInbound_regularLo]
  | usbInRegularHi k i a b c => rw [encode, decode_usbOut, decodeInbound_regularHi]
  | sample raw now => exact decode_encode_sample raw now
  | push ok => exact decode_encode_push ok
  | poll activity rx => exact decode_encode_poll hwf
  | hostTake deliver => exact decode_encode_hostTake deliver
  | serial => rfl
  | idle => rfl
  | usbEvent kind => rfl
  | bootDone => rfl
  | bootFail => rfl
  | reset => rfl

/-- Settles O29: the decoder evaluates on these eight fetches, whose operands are all numerals. -/
theorem writtenWordsDecode : Obligations.WrittenWordsDecode := by
  unfold Obligations.WrittenWordsDecode
  exact ⟨by decide, by decide, by decide, by decide, by decide, rfl, by decide, rfl⟩

/-- Settles O30: the line stands for the conversion `rawOfSample v`, whose down-scale is `v`. -/
theorem traceSampleStandsForItsValue : Obligations.TraceSampleStandsForItsValue := by
  unfold Obligations.TraceSampleStandsForItsValue
  exact fun v now => ⟨rawOfSample v, decode_sampleLine v now, downscale_rawOfSample v⟩

end

section
/-! The invariant of the block (10_state.md R19, R20, R23, 30_encoding.md R64, 42_sender_cdc.md R105).  One lemma
for each update an instruction is made of says under which condition the update keeps `Inv`; an instruction composes
them. -/

namespace Sys2Proof.Machine

/-! The open parameters (00_scope.md R7). -/

/-- The free map is one to one, since the permutation behind it is. -/
theorem mapOk_channelMap : MapOk Config.channelMap := by
  refine ⟨fun c d h => ?_, mapEntry_channelMap_eight⟩
  rw [mapEntry_channelMap, mapEntry_channelMap, ← BitVec.toNat_inj, BitVec.toNat_ofNat, BitVec.toNat_ofNat,
    Nat.mod_eq_of_lt (Config.mapPerm c.toFin).isLt, Nat.mod_eq_of_lt (Config.mapPerm d.toFin).isLt] at h
  have himage : c.toFin = d.toFin := Config.mapPerm.injective (Fin.ext h)
  exact BitVec.eq_of_toNat_eq (congrArg Fin.val himage)

/-! Messages, packets and the stream of the block. -/

/-- Every message of the encoder is one the block may send (30_encoding.md R64). -/
theorem isBlockMessage_encodeCc (map : Vector Chan 16) (c : Chan) (v : Sample) :
    IsBlockMessage 0xB0 (dataByte (controllerOf map c)) (dataByte v) := by
  refine ⟨rfl, ?_, ?_, ?_⟩
  · rw [toNat_dataByte]
    exact (controllerOf_bounds map c).1
  · rw [toNat_dataByte]
    exact (controllerOf_bounds map c).2
  · rw [toNat_dataByte]
    exact v.isLt

theorem IsBlockStream.append {xs ys : List Byte} (hx : IsBlockStream xs) (hy : IsBlockStream ys) :
    IsBlockStream (xs ++ ys) :=
  match xs, hx with
  | [], _ => hy
  | _ :: _ :: _ :: _, ⟨hmsg, hrest⟩ => ⟨hmsg, hrest.append hy⟩

theorem isBlockStream_encodeCc (map : Vector Chan 16) (c : Chan) (v : Sample) :
    IsBlockStream (encodeCc map c v) := by
  rw [encodeCc_eq]
  exact ⟨isBlockMessage_encodeCc map c v, trivial⟩

/-- The written-out form of a held message is the encoder's (41_encoder.md R87). -/
theorem encodeCc_eq_heldMessage (s : State) :
    encodeCc s.chanMap s.scanCh (s.knob s.scanCh).value =
      [0xB0, BitVec.ofNat 8 (101 + (mapEntry s.chanMap s.scanCh).toNat), (s.knob s.scanCh).valueByte] := by
  rw [encodeCc_eq, dataByte_controllerOf]
  rfl

section
variable {s : State}

/-- A held message is the encoding of channel `scan_ch` (42_sender_cdc.md R99). -/
theorem Inv.pMsg_eq_encodeCc (h : Inv s) (hphase : s.pPhase ≠ .sample) :
    s.pMsg = encodeCc s.chanMap s.scanCh (s.knob s.scanCh).value :=
  (h.msg hphase).trans (encodeCc_eq_heldMessage s).symm

/-! Updates of state the invariant does not mention. -/

theorem Inv.setFmtOut (h : Inv s) (r : Option (List Byte)) : Inv (s.setFmtOut r) := { h with }

theorem Inv.setPend (h : Inv s) (b : Bool) : Inv (s.setPend b) := { h with }

theorem Inv.muxSelect (h : Inv s) (c : Chan) : Inv (s.muxSelect c) := { h with }

theorem Inv.withScript (h : Inv s) (x : List Fetch) : Inv { s with script := x } := { h with }

theorem Inv.withTick (h : Inv s) (n : Nat) : Inv { s with tick := n } := { h with }

/-! The producer's updates. -/

/-- A producer that holds no message has nothing to say of `p_msg`. -/
theorem Inv.finishChannel (h : Inv s) (hmode : s.mode = .run) : Inv s.finishChannel :=
  { h with
    msg := fun hphase => absurd rfl hphase
    boot := fun hboot => absurd (hmode.symm.trans hboot) (by decide) }

/-- A transition makes `value` differ from `previous` (10_state.md R19). -/
theorem Inv.setKnob (h : Inv s) (hphase : s.pPhase = .sample) {c : Chan} {v : Sample} (now : Time)
    (hv : v ≠ (s.knob c).value) : Inv (s.setKnob c ⟨v, (s.knob c).value, now⟩) :=
  { h with
    knobs := fun d => by
      by_cases hd : d = c
      · rw [hd, knob_setKnob_same]
        exact .inr hv
      · rw [knob_setKnob_other s _ hd]
        exact h.knobs d
    msg := fun hne => absurd hphase hne }

/-- The message of channel `scan_ch` and its new value is held from SAMPLE on (41_encoder.md R87, R91). -/
theorem Inv.holdMessage (h : Inv s) (hmode : s.mode = .run) :
    Inv ((s.setMsg (encodeCc s.chanMap s.scanCh (s.knob s.scanCh).value)).setPhase .serial) :=
  { h with
    msgSize := by rw [setPhase_pMsg, setMsg_pMsg, encodeCc_eq]; rfl
    msg := fun _ => encodeCc_eq_heldMessage s
    boot := fun hboot => absurd (hmode.symm.trans hboot) (by decide) }

theorem Inv.sampleStep (h : Inv s) (hmode : s.mode = .run) (hphase : s.pPhase = .sample) (v : Sample)
    (now : Time) : Inv (sampleStep v now s) := by
  have hmux : Inv (s.muxSelect s.scanCh) := h.muxSelect s.scanCh
  rcases sampleStep_cases v now s with ⟨_, e⟩ | ⟨hv, _, e⟩ | ⟨hv, _, e⟩ <;> rw [e]
  · exact hmux.finishChannel hmode
  · exact (hmux.setKnob hphase now hv).finishChannel hmode
  · have hknob := (hmux.setKnob hphase now hv).holdMessage hmode
    rwa [setKnob_scanCh, muxSelect_scanCh, knob_setKnob_same] at hknob

/-- SERIAL writes the held message, which is a message of the block (30_encoding.md R64). -/
theorem Inv.serialStep (h : Inv s) (hmode : s.mode = .run) (hphase : s.pPhase = .serial) :
    Inv ((serialMessage s.pMsg s).setPhase .push) := by
  have hheld : s.pPhase ≠ .sample := by rw [hphase]; decide
  have hmsg : s.pMsg = encodeCc s.chanMap s.scanCh (s.knob s.scanCh).value := h.pMsg_eq_encodeCc hheld
  rw [serialMessage_of_eq_three (hmsg.trans (encodeCc_eq _ _ _)), ← encodeCc_eq]
  exact { h with
    msg := fun _ => h.msg hheld
    serial := h.serial.append (isBlockStream_encodeCc _ _ _)
    boot := fun hboot => absurd (hmode.symm.trans hboot) (by decide) }

theorem Inv.fifoPush (h : Inv s) (hmode : s.mode = .run) (hroom : s.txq.length < Config.usbTxDepth) {p : Packet}
    (hp : IsBlockPacket p) : Inv (s.fifoPush p) :=
  { h with
    occupancy := by rw [fifoPush_txq, List.length_append, List.length_singleton]; exact hroom
    queued := by
      rw [fifoPush_txq]
      exact List.forall_mem_append.mpr ⟨h.queued, by simpa using hp⟩
    boot := fun hboot => absurd (hmode.symm.trans hboot) (by decide) }

/-- The packet around the held message is a packet of the block. -/
theorem Inv.isBlockPacket_frame (h : Inv s) (hphase : s.pPhase ≠ .sample) {p : Packet}
    (hp : frame s.pMsg = .ok p) : IsBlockPacket p := by
  rw [h.pMsg_eq_encodeCc hphase, frame_encodeCc] at hp
  cases hp
  exact ⟨rfl, isBlockMessage_encodeCc _ _ _⟩

/-- PUSH never raises `PKT_SIZE`, since a held message has three bytes (42_sender_cdc.md R99). -/
theorem Inv.pushStep (h : Inv s) (hmode : s.mode = .run) (hphase : s.pPhase = .push) (ok : Bool) :
    Inv (pushStep Config.usbTxDepth ok s) := by
  have hheld : s.pPhase ≠ .sample := by rw [hphase]; decide
  rcases pushStep_cases Config.usbTxDepth ok s with ⟨p, hp, hroom, _, e⟩ | ⟨p, _, _, e⟩ | ⟨hlen, _⟩
  · rw [e]
    exact (h.fifoPush hmode hroom (h.isBlockPacket_frame hheld hp)).finishChannel hmode
  · rw [e]
    exact h.finishChannel hmode
  · exact absurd h.msgSize hlen

/-! The USB side's updates. -/

theorem Inv.fifoDrop (h : Inv s) (hmode : s.mode = .run) : Inv s.fifoDrop :=
  { h with
    occupancy := by
      rw [fifoDrop_txq, List.length_tail]
      exact (Nat.sub_le _ _).trans h.occupancy
    queued := fun p hp => h.queued p (List.mem_of_mem_tail hp)
    boot := fun hboot => absurd (hmode.symm.trans hboot) (by decide) }

theorem Inv.hostDeliver (h : Inv s) {p : Packet} (hp : IsBlockPacket p) : Inv (s.hostDeliver p) :=
  { h with
    delivered := by
      rw [hostDeliver_hostIn]
      exact List.forall_mem_append.mpr ⟨h.delivered, by simpa using hp⟩ }

/-! Boot, fault and reset. -/

theorem Inv.bootDone (h : Inv s) (hmode : s.mode = .boot) : Inv (s.enableIrq.setMode .run) :=
  { h with
    boot := nofun
    run := fun _ =>
      let ⟨_, hfault, _⟩ := h.boot hmode
      ⟨rfl, hfault⟩
    halt := nofun }

theorem Inv.raiseInitFail (h : Inv s) : Inv (raiseFault .initFail s) :=
  { h with
    boot := nofun
    run := nofun
    halt := fun _ => rfl }

theorem Inv.resetBlock (h : Inv s) : Inv (resetBlock s) :=
  { h with
    knobs := fun c => by
      rw [knob_resetBlock, knob_reset_eq]
      exact .inl ⟨rfl, rfl⟩
    occupancy := Nat.zero_le _
    msg := fun hphase => absurd rfl hphase
    queued := nofun
    boot := fun _ => ⟨rfl, rfl, rfl, rfl, rfl⟩
    run := nofun
    halt := nofun }

end

/-! One instruction, one step, one run. -/

theorem exec_keeps_inv {i : Instr} {s t : State} (hs : Inv s) (h : exec i s = .next t) : Inv t := by
  rcases exec_next_cases h with ⟨r, _, rfl⟩ | ⟨raw, now, _, hen, rfl⟩ | ⟨_, hen, rfl⟩ | ⟨ok, _, hen, rfl⟩ |
    ⟨_, _, rfl⟩ | ⟨k, _, _, rfl⟩ | ⟨a, rx, _, _, rfl⟩ | ⟨p, rest, _, hmode, hq, rfl⟩ |
    ⟨p, rest, _, hmode, _, rfl⟩ | ⟨_, hmode, rfl⟩ | ⟨_, _, rfl⟩ | ⟨_, rfl⟩
  · exact hs.setFmtOut r
  · obtain ⟨hmode, hphase⟩ := (sampleEnabled_iff s).mp hen
    exact hs.sampleStep hmode hphase _ now
  · obtain ⟨hmode, hphase⟩ := (serialEnabled_iff s).mp hen
    exact hs.serialStep hmode hphase
  · obtain ⟨hmode, hphase⟩ := (pushEnabled_iff s).mp hen
    exact hs.pushStep hmode hphase ok
  · exact hs
  · exact hs.setPend true
  · exact hs.setPend false
  · exact (hs.fifoDrop hmode).hostDeliver (hs.queued p (by simp [hq]))
  · exact hs.fifoDrop hmode
  · exact hs.bootDone hmode
  · exact hs.raiseInitFail
  · exact hs.resetBlock

/-- A step is an instruction at the state with its fetch consumed, or with the free schedule consulted. -/
theorem step_next_cases {s t : State} (h : step s = .next t) :
    (∃ f rest i, s.script = f :: rest ∧ decode f = .ok i ∧ exec i { s with script := rest } = .next t) ∨
    (s.script = [] ∧ exec (scheduled s) { s with tick := s.tick + 1 } = .next t) := by
  unfold step at h
  split at h
  · next f rest hscript =>
    split at h
    · next i hdecode => exact .inl ⟨f, rest, i, hscript, hdecode, h⟩
    · cases h
  · next hscript => exact .inr ⟨hscript, h⟩

theorem step_keeps_inv {s t : State} (hs : Inv s) (h : step s = .next t) : Inv t := by
  rcases step_next_cases h with ⟨f, rest, i, _, _, hexec⟩ | ⟨_, hexec⟩
  · exact exec_keeps_inv (hs.withScript rest) hexec
  · exact exec_keeps_inv (hs.withTick _) hexec

/-- At power-on the knobs are at their reset value, nothing is queued or sent, and `p_msg` has three bytes. -/
theorem inv_powerOn : Inv State.reset where
  map := mapOk_channelMap
  knobs c := by
    rw [← resetBlock_powerOn, knob_resetBlock, knob_reset_eq]
    exact .inl ⟨rfl, rfl⟩
  occupancy := Nat.zero_le _
  msgSize := rfl
  msg hphase := absurd rfl hphase
  queued := nofun
  delivered := nofun
  serial := trivial
  boot _ := ⟨rfl, rfl, rfl, rfl, rfl⟩
  run := nofun
  halt := nofun

theorem Reachable.inv {s : State} (h : Reachable s) : Inv s := by
  induction h with
  | powerOn => exact inv_powerOn
  | step i _ _ ht ih => exact exec_keeps_inv ih ht

/-- In `BOOT` and `RUN` there is no fault, and `HALT` is entered by an initialization failure only. -/
theorem Inv.fault_ne_pktSize {s : State} (h : Inv s) : s.fault ≠ some .pktSize := by
  cases hmode : s.mode with
  | boot =>
    obtain ⟨_, hfault, _⟩ := h.boot hmode
    rw [hfault]
    decide
  | run =>
    obtain ⟨_, hfault⟩ := h.run hmode
    rw [hfault]
    decide
  | halt =>
    rw [h.halt hmode]
    decide

end Sys2Proof.Machine

open Sys2Proof.Machine

/-- Settles O41: every update of an instruction keeps the invariant where the instruction is enabled, and the
invariant mentions neither the script nor the count of the free schedule. -/
theorem stepKeepsTheInvariant : Obligations.StepKeepsTheInvariant := by
  unfold Obligations.StepKeepsTheInvariant
  exact fun s t hs h => step_keeps_inv hs h

/-- Settles O42: each clause of the invariant is read off the values at power-on. -/
theorem powerOnMeetsTheInvariant : Obligations.PowerOnMeetsTheInvariant := by
  unfold Obligations.PowerOnMeetsTheInvariant
  exact inv_powerOn

/-- Settles O43: every reachable state meets the invariant, which excludes the fault and pins the held message. -/
theorem pktSizeIsUnreachable : Obligations.PktSizeIsUnreachable := by
  unfold Obligations.PktSizeIsUnreachable
  exact fun s hs => ⟨hs.inv.fault_ne_pktSize, hs.inv.pMsg_eq_encodeCc⟩

/-- Settles O44: the free parts only enlarge the depth and the width, and the map is made of a permutation. -/
theorem openParametersMeetTheirConstraints : Obligations.OpenParametersMeetTheirConstraints := by
  unfold Obligations.OpenParametersMeetTheirConstraints
  exact ⟨Nat.le_add_right 1 _, Nat.le_add_right 8 _, mapOk_channelMap⟩

end

section
/-! The serial stream along a run (10_state.md R29, 20_memory.md R50).  SAMPLE holds a message, SERIAL moves it to
the stream, and no other instruction but RESET touches stream, phase or message in a way the stream can show. -/

namespace Sys2Proof.Machine

/-! The message not yet written. -/

theorem pendingMessage_of_serial {s : State} (h : s.pPhase = .serial) : pendingMessage s = s.pMsg :=
  if_pos h

theorem pendingMessage_of_ne_serial {s : State} (h : s.pPhase ≠ .serial) : pendingMessage s = [] :=
  if_neg h

theorem pendingMessage_congr {s t : State} (hphase : t.pPhase = s.pPhase) (hmsg : t.pMsg = s.pMsg) :
    pendingMessage t = pendingMessage s := by
  rw [pendingMessage, pendingMessage, hphase, hmsg]

/-- Only SAMPLE emits. -/
theorem emittedBy_of_ne_sample {i : Instr} (h : ∀ raw now, i ≠ .sample raw now) (s : State) :
    emittedBy i s = [] := by
  unfold emittedBy
  split
  · exact absurd rfl (h _ _)
  · rfl

/-- A SAMPLE that emits holds the encoder's message; one that does not leaves `p_msg` (40_scan_debounce.md R78). -/
theorem sampleStep_pMsg (v : Sample) (now : Time) (s : State) :
    (sampleStep v now s).pMsg =
      if emitsAt s s.scanCh v now then encodeCc s.chanMap s.scanCh v else s.pMsg := by
  rcases sampleStep_cases v now s with ⟨hv, e⟩ | ⟨hv, hi, e⟩ | ⟨hv, hi, e⟩ <;> rw [e]
  · simp [emitsAt, debounce, hv]
  · simp [emitsAt, debounce, hv, hi]
  · simp [emitsAt, debounce, hv, hi]

/-- After SAMPLE what waits to be written is what SAMPLE emitted. -/
theorem pendingMessage_sampleStep (raw : BitVec Config.adcBits) (now : Time) (s : State) :
    pendingMessage (sampleStep (downscale raw) now s) = emittedBy (.sample raw now) s := by
  rw [pendingMessage, sampleStep_pPhase, sampleStep_pMsg, emittedBy]
  cases emitsAt s s.scanCh (downscale raw) now <;> simp

/-- SERIAL appends the whole of a message of three bytes. -/
theorem serialMessage_serOut {m : List Byte} (hlen : m.length = 3) (s : State) :
    (serialMessage m s).serOut = s.serOut ++ m := by
  obtain ⟨a, b, c, rfl⟩ := List.length_eq_three.mp hlen
  rw [serialMessage_three]

/-- A PUSH leaves the phase, when it raises a fault, or begins the next channel. -/
theorem pushStep_pPhase_ne_serial {s : State} (h : s.pPhase = .push) (depth : Nat) (ok : Bool) :
    (pushStep depth ok s).pPhase ≠ .serial := by
  rcases pushStep_cases depth ok s with ⟨_, _, _, _, e⟩ | ⟨_, _, _, e⟩ | ⟨_, e⟩ <;> simp [e, h]

/-- Besides the working steps only RESET touches the stream, the phase or the message. -/
theorem exec_keeps_message {i : Instr} {s t : State} (hi : isProducerWork i = false) (hne : i ≠ .reset)
    (h : exec i s = .next t) : t.serOut = s.serOut ∧ t.pPhase = s.pPhase ∧ t.pMsg = s.pMsg := by
  rcases exec_next_cases h with ⟨r, _, rfl⟩ | ⟨raw, now, rfl, _, _⟩ | ⟨rfl, _, _⟩ | ⟨ok, rfl, _, _⟩ |
    ⟨_, _, rfl⟩ | ⟨k, _, _, rfl⟩ | ⟨a, rx, _, _, rfl⟩ | ⟨p, rest, _, _, _, rfl⟩ | ⟨p, rest, _, _, _, rfl⟩ |
    ⟨_, _, rfl⟩ | ⟨_, _, rfl⟩ | ⟨rfl, _⟩
  · exact ⟨rfl, rfl, rfl⟩
  · cases hi
  · cases hi
  · cases hi
  · exact ⟨rfl, rfl, rfl⟩
  · exact ⟨rfl, rfl, rfl⟩
  · exact ⟨rfl, rfl, rfl⟩
  · exact ⟨rfl, rfl, rfl⟩
  · exact ⟨rfl, rfl, rfl⟩
  · exact ⟨rfl, rfl, rfl⟩
  · exact ⟨rfl, rfl, rfl⟩
  · exact absurd rfl hne

/-- The message that is to be written next, if one is, has three bytes (10_state.md R23). -/
def SerialReady (s : State) : Prop := s.pPhase = .serial → s.pMsg.length = 3

/-- From `s` to `t` the stream and the message not yet written grow by exactly the bytes `emitted`. -/
def StreamGrows (s : State) (emitted : List Byte) (t : State) : Prop :=
  t.serOut ++ pendingMessage t = s.serOut ++ pendingMessage s ++ emitted

theorem StreamGrows.trans {s u t : State} {xs ys : List Byte} (hsu : StreamGrows s xs u)
    (hut : StreamGrows u ys t) : StreamGrows s (xs ++ ys) t := by
  unfold StreamGrows at *
  rw [hut, hsu, List.append_assoc]

/-- The producer's three working steps: SAMPLE emits what then waits, SERIAL writes what waited, PUSH does neither.
-/
theorem producerWork_streamGrows {i : Instr} {s t : State} (hi : isProducerWork i = true) (hs : SerialReady s)
    (h : exec i s = .next t) : SerialReady t ∧ StreamGrows s (emittedBy i s) t := by
  unfold StreamGrows
  rcases isProducerWork_cases hi with ⟨raw, now, rfl⟩ | rfl | ⟨ok, rfl⟩
  · obtain ⟨hen, rfl⟩ := whenEnabled_next.mp h
    obtain ⟨_, hphase⟩ := (sampleEnabled_iff s).mp hen
    refine ⟨fun hserial => ?_, ?_⟩
    · rw [sampleStep_pPhase] at hserial
      rw [sampleStep_pMsg]
      cases hemit : emitsAt s s.scanCh (downscale raw) now with
      | true => rw [if_pos rfl, encodeCc_eq]; rfl
      | false => simp [hemit] at hserial
    · rw [pendingMessage_sampleStep, pendingMessage_of_ne_serial (s := s) (by rw [hphase]; decide),
        sampleStep_serOut, List.append_nil]
  · obtain ⟨hen, rfl⟩ := whenEnabled_next.mp h
    obtain ⟨_, hphase⟩ := (serialEnabled_iff s).mp hen
    refine ⟨nofun, ?_⟩
    rw [pendingMessage_of_serial hphase, pendingMessage_of_ne_serial (by rw [setPhase_pPhase]; decide),
      setPhase_serOut, serialMessage_serOut (hs hphase), emittedBy_of_ne_sample (by simp)]
  · obtain ⟨hen, rfl⟩ := whenEnabled_next.mp h
    obtain ⟨_, hphase⟩ := (pushEnabled_iff s).mp hen
    have hafter := pushStep_pPhase_ne_serial hphase Config.usbTxDepth ok
    refine ⟨fun hserial => absurd hserial hafter, ?_⟩
    rw [pendingMessage_of_ne_serial hafter, pendingMessage_of_ne_serial (s := s) (by rw [hphase]; decide),
      pushStep_serOut, emittedBy_of_ne_sample (by simp), List.append_nil, List.append_nil]

theorem exec_streamGrows {i : Instr} {s t : State} (hne : i ≠ .reset) (hs : SerialReady s)
    (h : exec i s = .next t) : SerialReady t ∧ StreamGrows s (emittedBy i s) t := by
  cases hi : isProducerWork i with
  | true => exact producerWork_streamGrows hi hs h
  | false =>
    obtain ⟨hout, hphase, hmsg⟩ := exec_keeps_message hi hne h
    have hnone : emittedBy i s = [] := emittedBy_of_ne_sample (by rintro _ _ rfl; cases hi) s
    refine ⟨fun hserial => ?_, ?_⟩
    · rw [hmsg]
      exact hs (hphase ▸ hserial)
    · rw [StreamGrows, hout, pendingMessage_congr hphase hmsg, hnone, List.append_nil]

theorem messagesOf_cons_of_next {i : Instr} {s u : State} (is : List Instr) (h : exec i s = .next u) :
    messagesOf (i :: is) s = emittedBy i s ++ messagesOf is u := by
  simp only [messagesOf, h]

theorem runOps_streamGrows {ops : List Instr} {s t : State} (hne : .reset ∉ ops) (hs : SerialReady s)
    (h : runOps ops s = .next t) : StreamGrows s (messagesOf ops s) t := by
  induction ops generalizing s with
  | nil =>
    cases h
    exact (List.append_nil _).symm
  | cons i is ih =>
    obtain ⟨hi, his⟩ := not_or.mp (mt List.mem_cons.mpr hne)
    obtain ⟨u, hu, hrun⟩ := runOps_cons_next h
    obtain ⟨hready, hgrows⟩ := exec_streamGrows (Ne.symm hi) hs hu
    rw [messagesOf_cons_of_next is hu]
    exact hgrows.trans (ih his hready hrun)

/-! The two logs, RESET included. -/

theorem exec_serOut_extends {i : Instr} {s t : State} (h : exec i s = .next t) : s.serOut <+: t.serOut := by
  rcases exec_next_cases h with ⟨r, _, rfl⟩ | ⟨raw, now, _, _, rfl⟩ | ⟨_, _, rfl⟩ | ⟨ok, _, _, rfl⟩ |
    ⟨_, _, rfl⟩ | ⟨k, _, _, rfl⟩ | ⟨a, rx, _, _, rfl⟩ | ⟨p, rest, _, _, _, rfl⟩ | ⟨p, rest, _, _, _, rfl⟩ |
    ⟨_, _, rfl⟩ | ⟨_, _, rfl⟩ | ⟨_, rfl⟩
  · exact List.prefix_rfl
  · rw [sampleStep_serOut]
  · rw [setPhase_serOut, serialMessage_any]
    exact List.prefix_append _ _
  · rw [pushStep_serOut]
  all_goals exact List.prefix_rfl

theorem runOps_serOut_extends {ops : List Instr} {s t : State} (h : runOps ops s = .next t) :
    s.serOut <+: t.serOut := by
  induction ops generalizing s with
  | nil =>
    cases h
    exact List.prefix_rfl
  | cons i is ih =>
    obtain ⟨u, hu, hrun⟩ := runOps_cons_next h
    exact (exec_serOut_extends hu).trans (ih hrun)

end Sys2Proof.Machine

open Sys2Proof.Machine

/-- Settles O47: `StreamGrows` by what is emitted holds of every instruction but RESET and composes along a run. -/
theorem serialStreamIsTheEmittedMessages : Obligations.SerialStreamIsTheEmittedMessages := by
  unfold Obligations.SerialStreamIsTheEmittedMessages
  exact fun ops s t hne hs h => runOps_streamGrows hne hs h

/-- Settles O45: SERIAL appends to the stream and no other instruction writes it; what the host has received grows
by the packets it gets. -/
theorem outputsAreAppendOnly : Obligations.OutputsAreAppendOnly := by
  unfold Obligations.OutputsAreAppendOnly
  intro ops s t h
  obtain ⟨got, hhost, _⟩ := runOps_keepsOrder h
  exact ⟨runOps_serOut_extends h, got, hhost.symm⟩

end

section
/-! What the USB side can reach (42_sender_cdc.md R102, R103).  `SameProducer` relates two runs: an instruction the
producer does not see keeps a run related to itself, and one step of the producer taken in two related states leaves
them related, so the relation follows the producer's operations alone. -/

namespace Sys2Proof.Machine

/-! `SameProducer` is an equivalence. -/

theorem SameProducer.refl (s : State) : SameProducer s s := ⟨rfl, rfl, rfl, rfl, rfl, rfl, rfl⟩

theorem SameProducer.symm {s t : State} (h : SameProducer s t) : SameProducer t s := by
  obtain ⟨hknobs, hmap, hch, hphase, hmsg, hout, hmode⟩ := h
  exact ⟨hknobs.symm, hmap.symm, hch.symm, hphase.symm, hmsg.symm, hout.symm, hmode.symm⟩

theorem SameProducer.trans {s t u : State} (h : SameProducer s t) (h' : SameProducer t u) : SameProducer s u := by
  obtain ⟨hknobs, hmap, hch, hphase, hmsg, hout, hmode⟩ := h
  obtain ⟨hknobs', hmap', hch', hphase', hmsg', hout', hmode'⟩ := h'
  exact ⟨hknobs.trans hknobs', hmap.trans hmap', hch.trans hch', hphase.trans hphase', hmsg.trans hmsg',
    hout.trans hout', hmode.trans hmode'⟩

/-! Instructions the producer does not see. -/

/-- The USB side's operations, the waits and the formats keep all that the producer sees. -/
theorem exec_unseen {i : Instr} {s t : State} (hi : producerAct i = none) (h : exec i s = .next t) :
    SameProducer s t := by
  rcases exec_next_cases h with ⟨r, _, rfl⟩ | ⟨raw, now, rfl, _, _⟩ | ⟨rfl, _, _⟩ | ⟨ok, rfl, _, _⟩ |
    ⟨_, _, rfl⟩ | ⟨k, _, _, rfl⟩ | ⟨a, rx, _, _, rfl⟩ | ⟨p, rest, _, _, _, rfl⟩ | ⟨p, rest, _, _, _, rfl⟩ |
    ⟨rfl, _, _⟩ | ⟨rfl, _, _⟩ | ⟨rfl, _⟩
  · exact .refl _
  · cases hi
  · cases hi
  · cases hi
  · exact .refl _
  · exact .refl _
  · exact .refl _
  · exact .refl _
  · exact .refl _
  · cases hi
  · cases hi
  · cases hi

/-- Such instructions never lengthen the queue: they keep it or take its head. -/
theorem exec_unseen_txq {i : Instr} {s t : State} (hi : producerAct i = none) (h : exec i s = .next t) :
    t.txq <:+ s.txq := by
  rcases exec_txq_hostIn_cases h with ⟨_, hq⟩ | ⟨d, p, _, hq, _⟩ | ⟨rfl, _, _⟩
  · rw [hq, pushedBy_of_ne_push (by rintro ok rfl; cases hi), List.append_nil]
  · rw [hq]
    exact List.suffix_cons p t.txq
  · cases hi

theorem runOps_unseen {ops : List Instr} {s t : State} (hops : ∀ i ∈ ops, producerAct i = none)
    (h : runOps ops s = .next t) : SameProducer s t ∧ t.txq <:+ s.txq := by
  induction ops generalizing s with
  | nil =>
    cases h
    exact ⟨.refl _, List.suffix_rfl⟩
  | cons i is ih =>
    obtain ⟨hi, his⟩ := List.forall_mem_cons.mp hops
    obtain ⟨u, hu, hrun⟩ := runOps_cons_next h
    obtain ⟨hsame, hsuffix⟩ := ih his hrun
    exact ⟨(exec_unseen hi hu).trans hsame, hsuffix.trans (exec_unseen_txq hi hu)⟩

/-! One step of the producer in two states it cannot tell apart. -/

/-- A SAMPLE writes the one knob of a transition (40_scan_debounce.md R82). -/
theorem sampleStep_knobs (v : Sample) (now : Time) (s : State) :
    (sampleStep v now s).knobs =
      if v = (s.knob s.scanCh).value then s.knobs
      else s.knobs.set s.scanCh.toNat ⟨v, (s.knob s.scanCh).value, now⟩ := by
  rcases sampleStep_cases v now s with ⟨hv, e⟩ | ⟨hv, _, e⟩ | ⟨hv, _, e⟩ <;> rw [e]
  · rw [if_pos hv, finishChannel_knobs, muxSelect_knobs]
  · rw [if_neg hv, finishChannel_knobs, setKnob_knobs, muxSelect_knobs]
  · rw [if_neg hv, setPhase_knobs, setMsg_knobs, setKnob_knobs, muxSelect_knobs]

theorem emitsAt_congr {s t : State} {c : Chan} (h : s.knob c = t.knob c) (v : Sample) (now : Time) :
    emitsAt s c v now = emitsAt t c v now := by
  rw [emitsAt, emitsAt, h]

/-- What SAMPLE does is a function of the knob file, the map, the scan position and the sample. -/
theorem SameProducer.sampleStep {s s' : State} (h : SameProducer s s') (v : Sample) (now : Time) :
    SameProducer (sampleStep v now s) (sampleStep v now s') := by
  obtain ⟨hknobs, hmap, hch, _, hmsg, hout, hmode⟩ := h
  have hknob : ∀ c, s.knob c = s'.knob c := knob_congr hknobs
  have hemits : emitsAt s s.scanCh v now = emitsAt s' s'.scanCh v now := by
    rw [hch, emitsAt_congr (hknob _)]
  refine ⟨?knobs, ?map, ?ch, ?phase, ?msg, ?out, ?mode⟩
  case knobs => simp only [sampleStep_knobs, hknob, hknobs, hch]
  case map => rw [sampleStep_chanMap, sampleStep_chanMap, hmap]
  case ch => rw [sampleStep_scanCh, sampleStep_scanCh, hemits, hch]
  case phase => rw [sampleStep_pPhase, sampleStep_pPhase, hemits]
  case msg => rw [sampleStep_pMsg, sampleStep_pMsg, hemits, hmap, hch, hmsg]
  case out => rw [sampleStep_serOut, sampleStep_serOut, hout]
  case mode => rw [sampleStep_mode, sampleStep_mode, hmode]

theorem SameProducer.serialStep {s s' : State} (h : SameProducer s s') :
    SameProducer ((serialMessage s.pMsg s).setPhase .push) ((serialMessage s'.pMsg s').setPhase .push) := by
  obtain ⟨hknobs, hmap, hch, _, hmsg, hout, hmode⟩ := h
  have hsame : serialMessage s'.pMsg s' =
      { s' with serOut := s'.serOut ++ [msgByte s.pMsg 0, msgByte s.pMsg 1, msgByte s.pMsg 2] } := by
    rw [hmsg, serialMessage_any]
  rw [hsame, serialMessage_any]
  exact ⟨hknobs, hmap, hch, rfl, hmsg, congrArg (· ++ _) hout, hmode⟩

theorem SameProducer.finishChannel {s s' : State} (h : SameProducer s s') :
    SameProducer s.finishChannel s'.finishChannel := by
  obtain ⟨hknobs, hmap, hch, _, hmsg, hout, hmode⟩ := h
  exact ⟨hknobs, hmap, congrArg (· + 1) hch, rfl, hmsg, hout, hmode⟩

theorem SameProducer.raiseFault {s s' : State} (h : SameProducer s s') (code : FaultCode) :
    SameProducer (raiseFault code s) (raiseFault code s') := by
  obtain ⟨hknobs, hmap, hch, hphase, hmsg, hout, _⟩ := h
  exact ⟨hknobs, hmap, hch, hphase, hmsg, hout, rfl⟩

/-- Queued or dropped, a PUSH that can frame its message ends the same for the producer. -/
theorem sameProducer_pushStep_of_length {s : State} (hlen : s.pMsg.length = 3) (depth : Nat) (ok : Bool) :
    SameProducer (pushStep depth ok s) s.finishChannel := by
  rcases pushStep_cases depth ok s with ⟨p, _, _, _, e⟩ | ⟨_, _, _, e⟩ | ⟨hne, _⟩
  · rw [e]
    exact .refl _
  · rw [e]
    exact .refl _
  · exact absurd hlen hne

/-- What a PUSH reports, and whether its queue is full, the producer does not see. -/
theorem SameProducer.pushStep {s s' : State} (h : SameProducer s s') (depth : Nat) (ok ok' : Bool) :
    SameProducer (pushStep depth ok s) (pushStep depth ok' s') := by
  have hmsg : s.pMsg = s'.pMsg :=
    let ⟨_, _, _, _, hmsg, _, _⟩ := h
    hmsg
  by_cases hlen : s.pMsg.length = 3
  · have hlen' : s'.pMsg.length = 3 := hmsg ▸ hlen
    exact ((sameProducer_pushStep_of_length hlen depth ok).trans h.finishChannel).trans
      (sameProducer_pushStep_of_length hlen' depth ok').symm
  · have hlen' : s'.pMsg.length ≠ 3 := hmsg ▸ hlen
    rw [pushStep_of_frame_error depth ok (frame_error hlen), pushStep_of_frame_error depth ok' (frame_error hlen')]
    exact h.raiseFault .pktSize

/-- An instruction the producer sees is seen as itself, but for the outcome of a PUSH. -/
theorem producerAct_eq_some_cases {i a : Instr} (h : producerAct i = some a) :
    i = a ∨ (a = .push true ∧ ∃ ok, i = .push ok) := by
  cases i with
  | push ok => exact .inr ⟨(Option.some.inj h).symm, ok, rfl⟩
  | sample raw now => exact .inl (Option.some.inj h)
  | serial => exact .inl (Option.some.inj h)
  | bootDone => exact .inl (Option.some.inj h)
  | bootFail => exact .inl (Option.some.inj h)
  | reset => exact .inl (Option.some.inj h)
  | _ => cases h

/-- Two instructions the producer sees as one are the same, or two PUSHes. -/
theorem producerAct_same_cases {i i' a : Instr} (hi : producerAct i = some a) (hi' : producerAct i' = some a) :
    i = i' ∨ ∃ ok ok', i = .push ok ∧ i' = .push ok' := by
  rcases producerAct_eq_some_cases hi with rfl | ⟨rfl, ok, rfl⟩
  · rcases producerAct_eq_some_cases hi' with rfl | ⟨rfl, ok', rfl⟩
    · exact .inl rfl
    · exact .inr ⟨true, ok', rfl, rfl⟩
  · rcases producerAct_eq_some_cases hi' with rfl | ⟨_, ok', rfl⟩
    · exact .inr ⟨ok, true, rfl, rfl⟩
    · exact .inr ⟨ok, ok', rfl, rfl⟩

theorem exec_push_next {ok : Bool} {s t : State} (h : exec (.push ok) s = .next t) :
    t = pushStep Config.usbTxDepth ok s :=
  (whenEnabled_next.mp h).2.symm

theorem exec_serial_next {s t : State} (h : exec .serial s = .next t) :
    t = (serialMessage s.pMsg s).setPhase .push :=
  (whenEnabled_next.mp h).2.symm

/-- One instruction the producer sees, completed in two states it cannot tell apart, ends in two such states. -/
theorem exec_sameProducer {i : Instr} {s s' t t' : State} (hi : producerAct i ≠ none) (hs : SameProducer s s')
    (h : exec i s = .next t) (h' : exec i s' = .next t') : SameProducer t t' := by
  cases i with
  | sample raw now =>
    rw [exec_sample_next h, exec_sample_next h']
    exact hs.sampleStep _ now
  | serial =>
    rw [exec_serial_next h, exec_serial_next h']
    exact hs.serialStep
  | push ok =>
    rw [exec_push_next h, exec_push_next h']
    exact hs.pushStep _ ok ok
  | bootDone =>
    obtain ⟨_, rfl⟩ := exec_bootDone_next h
    obtain ⟨_, rfl⟩ := exec_bootDone_next h'
    obtain ⟨hknobs, hmap, hch, hphase, hmsg, hout, _⟩ := hs
    exact ⟨hknobs, hmap, hch, hphase, hmsg, hout, rfl⟩
  | bootFail =>
    rw [exec_bootFail_next h, exec_bootFail_next h']
    exact hs.raiseFault .initFail
  | reset =>
    rw [exec_reset_next.mp h, exec_reset_next.mp h']
    obtain ⟨_, hmap, _, _, hmsg, hout, _⟩ := hs
    exact ⟨rfl, hmap, rfl, rfl, hmsg, hout, rfl⟩
  | _ => exact absurd rfl hi

/-- The same of two instructions the producer sees as one: two PUSHes may report different outcomes. -/
theorem exec_sameProducer_of_producerAct {i i' a : Instr} {s s' t t' : State} (hi : producerAct i = some a)
    (hi' : producerAct i' = some a) (hs : SameProducer s s') (h : exec i s = .next t)
    (h' : exec i' s' = .next t') : SameProducer t t' := by
  rcases producerAct_same_cases hi hi' with rfl | ⟨ok, ok', rfl, rfl⟩
  · exact exec_sameProducer (by rw [hi]; exact Option.some_ne_none a) hs h h'
  · rw [exec_push_next h, exec_push_next h']
    exact hs.pushStep _ ok ok'

/-! Two runs. -/

/-- A run of two lists in a row that completes stops between them. -/
theorem runOps_append_next {is js : List Instr} {s t : State} (h : runOps (is ++ js) s = .next t) :
    ∃ u, runOps is s = .next u ∧ runOps js u = .next t := by
  rw [runOps_append] at h
  split at h
  · next u hu => exact ⟨u, hu, h⟩
  · cases h
  · cases h

/-- A run whose first instruction that the producer sees is `a` takes it from a state like the first one, and goes
on with what is left. -/
theorem runOps_first_seen {ops as : List Instr} {a : Instr} {s t : State}
    (hops : ops.filterMap producerAct = a :: as) (h : runOps ops s = .next t) :
    ∃ i rest u v, producerAct i = some a ∧ rest.filterMap producerAct = as ∧ SameProducer s u ∧
      exec i u = .next v ∧ runOps rest v = .next t := by
  induction ops generalizing s with
  | nil => cases hops
  | cons i is ih =>
    obtain ⟨v, hv, hrun⟩ := runOps_cons_next h
    cases hi : producerAct i with
    | none =>
      rw [List.filterMap_cons_none hi] at hops
      obtain ⟨j, rest, u, w, hj, hrest, hsame, hexec, hgo⟩ := ih hops hrun
      exact ⟨j, rest, u, w, hj, hrest, (exec_unseen hi hv).trans hsame, hexec, hgo⟩
    | some b =>
      rw [List.filterMap_cons_some hi] at hops
      obtain ⟨rfl, rfl⟩ := List.cons.inj hops
      exact ⟨i, is, s, v, hi, rfl, .refl s, hv, hrun⟩

/-- Two runs that agree in the producer's operations, from two states it cannot tell apart, end in two such states.
-/
theorem runOps_sameProducer {as ops ops' : List Instr} {s s' t t' : State}
    (hops : ops.filterMap producerAct = as) (hops' : ops'.filterMap producerAct = as) (hs : SameProducer s s')
    (h : runOps ops s = .next t) (h' : runOps ops' s' = .next t') : SameProducer t t' := by
  induction as generalizing ops ops' s s' with
  | nil =>
    obtain ⟨hsame, _⟩ := runOps_unseen (List.filterMap_eq_nil_iff.mp hops) h
    obtain ⟨hsame', _⟩ := runOps_unseen (List.filterMap_eq_nil_iff.mp hops') h'
    exact (hsame.symm.trans hs).trans hsame'
  | cons a as ih =>
    obtain ⟨i, rest, u, v, hi, hrest, hsame, hexec, hgo⟩ := runOps_first_seen hops h
    obtain ⟨i', rest', u', v', hi', hrest', hsame', hexec', hgo'⟩ := runOps_first_seen hops' h'
    have hu : SameProducer u u' := (hsame.symm.trans hs).trans hsame'
    exact ih hrest hrest' (exec_sameProducer_of_producerAct hi hi' hu hexec hexec') hgo hgo'

/-! One emitted message on both transports. -/

/-- The producer sees neither the USB side's operations nor a wait. -/
theorem producerAct_of_usbSide_or_idle {i : Instr} (h : isUsbSide i = true ∨ i = .idle) :
    producerAct i = none := by
  rcases h with h | rfl
  · unfold isUsbSide at h
    split at h
    · rfl
    · rfl
    · rfl
    · cases h
  · rfl

/-- A PUSH of a message of three bytes queues the packet around it or leaves the queue. -/
theorem pushStep_txq_of_three {s : State} {b0 b1 b2 : Byte} (hmsg : s.pMsg = [b0, b1, b2]) (depth : Nat)
    (ok : Bool) :
    (pushStep depth ok s).txq = s.txq ∨ (pushStep depth ok s).txq = s.txq ++ [⟨0x0B, b0, b1, b2⟩] := by
  rcases pushStep_cases depth ok s with ⟨p, hp, _, _, e⟩ | ⟨_, _, _, e⟩ | ⟨_, e⟩
  · obtain rfl : ⟨0x0B, b0, b1, b2⟩ = p := Except.ok.inj ((frame_of_eq_three hmsg).symm.trans hp)
    exact .inr (by rw [e, finishChannel_txq, fifoPush_txq])
  · exact .inl (by rw [e, finishChannel_txq])
  · exact .inl (by rw [e, raiseFault_txq])

end Sys2Proof.Machine

open Sys2Proof Sys2Proof.Machine

/-- Settles O48: `SameProducer` is a simulation between the two runs, in which unseen instructions are silent. -/
theorem usbSideNeverReachesTheProducer : Obligations.UsbSideNeverReachesTheProducer := by
  unfold Obligations.UsbSideNeverReachesTheProducer
  exact fun ops ops' s s' t t' hops hs h h' => runOps_sameProducer hops rfl hs h h'

/-- Settles O49: SERIAL writes the held message, what comes between keeps it, and PUSH frames the same message. -/
theorem bothTransportsCarryTheSameBytes : Obligations.BothTransportsCarryTheSameBytes := by
  unfold Obligations.BothTransportsCarryTheSameBytes
  intro s t between ok b0 b1 b2 hbetween hphase hmsg h
  rw [List.append_assoc, List.singleton_append] at h
  obtain ⟨u, hserial, hrest⟩ := runOps_cons_next h
  obtain ⟨w, hw, hlast⟩ := runOps_append_next hrest
  obtain ⟨_, hpush, hend⟩ := runOps_cons_next hlast
  cases hend
  obtain rfl := exec_serial_next hserial
  obtain ⟨⟨_, _, _, _, hmsgKept, houtKept, _⟩, hsuffix⟩ :=
    runOps_unseen (fun i hi => producerAct_of_usbSide_or_idle (hbetween i hi)) hw
  rw [exec_push_next hpush]
  refine ⟨?_, w.txq, by simpa using hsuffix, pushStep_txq_of_three ?_ _ ok⟩
  · rw [pushStep_serOut, ← houtKept, setPhase_serOut, serialMessage_of_eq_three hmsg]
  · rw [← hmsgKept, setPhase_pMsg, serialMessage_pMsg, hmsg]

end

section
/-! Delivery under fairness (70_reset_and_hazards.md R157).  Once no packet is lost any more, what the host has
received followed by what is queued is only appended to; so all that is carried at some time has reached the host as
soon as the queue runs empty or as many packets are delivered, and F3 supplies a delivery as often as needed. -/

namespace Sys2Proof.Machine

/-- What the host has received and what is on its way to it, in order. -/
def carried (s : State) : List Packet := s.hostIn ++ s.txq

theorem hostIn_isPrefix_carried (s : State) : s.hostIn <+: carried s := List.prefix_append _ _

theorem carried_of_txq_nil {s : State} (h : s.txq = []) : carried s = s.hostIn := by
  rw [carried, h, List.append_nil]

/-- An instruction that neither loses a packet nor leaves `RUN` only appends to what is carried. -/
theorem exec_carried_extends {i : Instr} {s t : State} (h : exec i s = .next t) (hrun : t.mode = .run)
    (hi : i ≠ .hostTake false) : carried s <+: carried t := by
  unfold carried
  rcases exec_txq_hostIn_cases h with ⟨hhost, hq⟩ | ⟨d, p, rfl, hq, hhost⟩ | ⟨rfl, _, _⟩
  · rw [hhost, hq, ← List.append_assoc]
    exact List.prefix_append _ _
  · cases d with
    | false => exact absurd rfl hi
    | true => rw [hhost, hq, if_pos rfl, List.append_assoc, List.singleton_append]
  · obtain rfl := exec_reset_next.mp h
    cases hrun

/-- What the host has received is only appended to. -/
theorem exec_hostIn_extends {i : Instr} {s t : State} (h : exec i s = .next t) : s.hostIn <+: t.hostIn := by
  obtain ⟨got, hhost, _⟩ := exec_keepsOrder h
  exact ⟨got, hhost.symm⟩

/-- A HOST_TAKE that completes takes the head of a queue that is not empty. -/
theorem exec_hostTake_next {deliver : Bool} {s t : State} (h : exec (.hostTake deliver) s = .next t) :
    ∃ p rest, s.txq = p :: rest ∧ t = takeStep deliver p s := by
  cases hq : s.txq with
  | nil =>
    rw [exec_hostTake_of_nil deliver hq] at h
    cases h
  | cons p rest =>
    rw [exec_hostTake_of_cons deliver hq] at h
    exact ⟨p, rest, rfl, (whenEnabled_next.mp h).2.symm⟩

/-- A delivery is one packet more at the host. -/
theorem length_hostIn_of_delivery {s t : State} (h : exec (.hostTake true) s = .next t) :
    t.hostIn.length = s.hostIn.length + 1 := by
  obtain ⟨p, rest, _, rfl⟩ := exec_hostTake_next h
  rw [takeStep, if_pos rfl, hostDeliver_hostIn, fifoDrop_hostIn, List.length_append, List.length_singleton]

/-! Along a run that stays in `RUN` and loses no packet any more. -/

section
variable {r : Run} {n : Nat}

theorem Run.carried_extends (hok : r.Ok) (hrun : r.StaysRunning n)
    (hkeep : ∀ m, n ≤ m → r.op m ≠ .hostTake false) {m k : Nat} (hm : n ≤ m) (hmk : m ≤ k) :
    carried (r.at_ m) <+: carried (r.at_ k) := by
  induction k, hmk using Nat.le_induction with
  | base => exact List.prefix_rfl
  | succ k hmk ih =>
    have hnext : (r.at_ (k + 1)).mode = .run := hrun (k + 1) (by omega)
    exact ih.trans (exec_carried_extends (hok k).2 hnext (hkeep k (hm.trans hmk)))

theorem Run.hostIn_extends (hok : r.Ok) {m k : Nat} (hmk : m ≤ k) : (r.at_ m).hostIn <+: (r.at_ k).hostIn := by
  induction k, hmk using Nat.le_induction with
  | base => exact List.prefix_rfl
  | succ k hmk ih => exact ih.trans (exec_hostIn_extends (hok k).2)

/-- What the host has received by a time and what was carried by an earlier one are both beginnings of what is
carried then, so counting packets decides which is the longer one. -/
theorem Run.carried_received (hok : r.Ok) (hrun : r.StaysRunning n)
    (hkeep : ∀ m, n ≤ m → r.op m ≠ .hostTake false) {m k : Nat} (hm : n ≤ m) (hmk : m ≤ k)
    (hlen : (carried (r.at_ m)).length ≤ (r.at_ k).hostIn.length) :
    carried (r.at_ m) <+: (r.at_ k).hostIn :=
  List.prefix_of_prefix_length_le (Run.carried_extends hok hrun hkeep hm hmk) (hostIn_isPrefix_carried _) hlen

/-- From any time on, either the queue runs empty or a packet is delivered. -/
theorem Run.F3.empty_or_delivery (hF3 : r.F3) (hkeep : ∀ m, n ≤ m → r.op m ≠ .hostTake false) {j : Nat}
    (hj : n ≤ j) : ∃ k, j ≤ k ∧ ((r.at_ k).txq = [] ∨ r.op k = .hostTake true) := by
  by_cases hempty : ∃ k, j ≤ k ∧ (r.at_ k).txq = []
  · obtain ⟨k, hjk, hk⟩ := hempty
    exact ⟨k, hjk, .inl hk⟩
  · obtain ⟨k, hjk, d, hd⟩ := hF3 j (fun m hm hq => hempty ⟨m, hm, hq⟩) j le_rfl
    cases d with
    | true => exact ⟨k, hjk, .inr hd⟩
    | false => exact absurd hd (hkeep k (hj.trans hjk))

/-- All that is carried at `m` reaches the host: by induction on how many packets of it are missing at `j`. -/
theorem Run.exists_received (hok : r.Ok) (hrun : r.StaysRunning n) (hF3 : r.F3)
    (hkeep : ∀ m, n ≤ m → r.op m ≠ .hostTake false) {m j : Nat} (hm : n ≤ m) (hmj : m ≤ j) :
    ∃ l, m ≤ l ∧ carried (r.at_ m) <+: (r.at_ l).hostIn := by
  induction hd : (carried (r.at_ m)).length - (r.at_ j).hostIn.length using Nat.strong_induction_on
    generalizing j with
  | h d ih =>
    obtain ⟨k, hjk, hk⟩ := hF3.empty_or_delivery hkeep (hm.trans hmj)
    by_cases hall : (carried (r.at_ m)).length ≤ (r.at_ j).hostIn.length
    · exact ⟨j, hmj, Run.carried_received hok hrun hkeep hm hmj hall⟩
    · rcases hk with hempty | htake
      · have hreach := Run.carried_extends hok hrun hkeep hm (hmj.trans hjk)
        rw [carried_of_txq_nil hempty] at hreach
        exact ⟨k, hmj.trans hjk, hreach⟩
      · have hmore : (r.at_ j).hostIn.length ≤ (r.at_ k).hostIn.length := (Run.hostIn_extends hok hjk).length_le
        have hone : (r.at_ (k + 1)).hostIn.length = (r.at_ k).hostIn.length + 1 :=
          length_hostIn_of_delivery (htake ▸ (hok k).2)
        exact ih _ (by omega) (by omega : m ≤ k + 1) rfl

end

end Sys2Proof.Machine

open Sys2Proof.Machine

/-- Settles O52: from the time the run has come to stay in `RUN` and to lose no packet, all that is carried at any
time reaches the host. -/
theorem queuedPacketsReachTheHost : Obligations.QueuedPacketsReachTheHost := by
  unfold Obligations.QueuedPacketsReachTheHost
  intro r n hok hrun hF3 hF4
  obtain ⟨n', hkeep⟩ := hF4
  have hrun' : r.StaysRunning (max n n') := fun m hm => hrun m ((le_max_left n n').trans hm)
  have hkeep' : ∀ m, max n n' ≤ m → r.op m ≠ .hostTake false := fun m hm => hkeep m ((le_max_right n n').trans hm)
  exact ⟨max n n', fun m hm => Run.exists_received hok hrun' hF3 hkeep' hm le_rfl⟩

end

section
/-! The debounce rule in plain numbers and the down-scale (10_state.md R35, 40_scan_debounce.md R74, R75, R81 to
R84). -/

namespace Sys2Proof.Machine

/-- A sample equal to `value` is no transition (R79). -/
theorem debounce_of_eq {V s : Sample} (P : Sample) (T now : Time) (h : s = V) :
    debounce V P T s now = ⟨false, false⟩ :=
  if_pos h

/-- A transition away from `previous` as well is emitted whatever the two times are. -/
theorem debounce_of_ne_of_ne {V P s : Sample} (T now : Time) (hV : s ≠ V) (hP : s ≠ P) :
    debounce V P T s now = ⟨true, true⟩ := by
  rw [debounce, if_neg hV, (shouldIgnore_eq_false_iff P T s now).mpr (.inl hP), Bool.not_false]

/-- When a sample is emitted: a transition, and not a late return to the value before (R81). -/
theorem debounce_emit_iff (V P : Sample) (T : Time) (s : Sample) (now : Time) :
    (debounce V P T s now).emit = true ↔ s ≠ V ∧ (s ≠ P ∨ now.toNat ≤ T.toNat + 50) := by
  by_cases h : s = V
  · rw [debounce_of_eq P T now h]
    simp [h]
  · rw [debounce_emit_of_ne P T now h, and_iff_right h]

/-- The down-scale is a division: the seven bits that are left hold the whole quotient (R74). -/
theorem toNat_downscale (raw : BitVec Config.adcBits) :
    (downscale raw).toNat = raw.toNat / 2 ^ (Config.adcBits - 7) := by
  have hbits : Config.adcBits = 7 + (Config.adcBits - 7) := by
    unfold Config.adcBits
    omega
  have hraw : raw.toNat < 2 ^ 7 * 2 ^ (Config.adcBits - 7) := by
    rw [← pow_add, ← hbits]
    exact raw.isLt
  have hquot : raw.toNat / 2 ^ (Config.adcBits - 7) < 2 ^ 7 :=
    Nat.div_lt_of_lt_mul (by rwa [Nat.mul_comm])
  rw [downscale, downscaleFrom, BitVec.toNat_setWidth, BitVec.toNat_ushiftRight, Nat.shiftRight_eq_div_pow,
    Nat.mod_eq_of_lt hquot]

/-- Seven bits behind a zero bit leave bit 7 zero (10_state.md R16). -/
theorem getLsbD_seven_of_sample (v : Sample) : (0#1 ++ v).getLsbD 7 = false := by
  revert v; decide

end Sys2Proof.Machine

open Sys2Proof Sys2Proof.Machine

/-- Settles O10: each clause reads `debounce_emit_iff` under its own bound on the two times. -/
theorem debounceClosedForm : Obligations.DebounceClosedForm := by
  unfold Obligations.DebounceClosedForm
  refine fun V P T s now => ⟨debounce_emit_iff V P T s now, fun hV hP hle => ⟨fun hearly => ?_, fun hlate => ?_⟩,
    fun hV hbefore => ?_⟩
  · exact (debounce_emit_iff V P T s now).mpr ⟨hV, .inr (by omega)⟩
  · rw [← Bool.not_eq_true, debounce_emit_iff]
    rintro ⟨_, hne | hle'⟩
    · exact hne hP
    · omega
  · exact (debounce_emit_iff V P T s now).mpr ⟨hV, .inr (by omega)⟩

/-- Settles O12: a sample that differs from `value` then differs from `previous` too, so no time is looked at. -/
theorem firstTransitionIgnoresTheTime : Obligations.FirstTransitionIgnoresTheTime := by
  unfold Obligations.FirstTransitionIgnoresTheTime
  intro V T T' s now
  by_cases h : s = V
  · exact ⟨by rw [debounce_of_eq V T now h, debounce_of_eq V T' now h], fun hne => absurd h hne⟩
  · have hT := debounce_of_ne_of_ne T now h h
    exact ⟨hT.trans (debounce_of_ne_of_ne T' now h h).symm, fun _ => by rw [hT]⟩

/-- Settles O13: a quotient by a power of two, which fits seven bits and grows with the dividend. -/
theorem downscaleIsMonotonic : Obligations.DownscaleIsMonotonic := by
  unfold Obligations.DownscaleIsMonotonic
  refine ⟨fun raw => ⟨toNat_downscale raw, ?_⟩, fun a b hab => ?_, fun k => ?_⟩
  · have hlt : (downscale raw).toNat < 2 ^ 7 := (downscale raw).isLt
    omega
  · rw [toNat_downscale, toNat_downscale]
    exact Nat.div_le_div_right hab
  · exact ⟨getLsbD_seven_of_sample k.value, getLsbD_seven_of_sample k.previous⟩

end

section
/-! The format rows as instructions (30_encoding.md R61, R64, 41_encoder.md R87, 42_sender_cdc.md R98,
43_usb_poll.md R116; assumption log 7), and the two operations with a choice of the model behind them (assumption
logs 10 and 16). -/

namespace Sys2Proof.Machine

/-! The channel of a controller number. -/

/-- The channel found for a controller number has that number (R61). -/
theorem controllerOf_of_channelOf_eq_some {map : Vector Chan 16} {ctl : BitVec 7} {c : Chan}
    (h : channelOf map ctl = some c) : controllerOf map c = ctl :=
  beq_iff_eq.mp (List.find?_some (p := fun c => controllerOf map c == ctl) h)

/-- No channel is found exactly for the numbers no channel has. -/
theorem channelOf_eq_none_iff {map : Vector Chan 16} {ctl : BitVec 7} :
    channelOf map ctl = none ↔ ∀ c, controllerOf map c ≠ ctl := by
  simp [channelOf, mem_allChannels]

/-- Of a permutation the numbers that a channel has are 101 to 116 (41_encoder.md R88, R89). -/
theorem exists_controllerOf_iff {map : Vector Chan 16} (hmap : MapOk map) (ctl : BitVec 7) :
    (∃ c, controllerOf map c = ctl) ↔ 101 ≤ ctl.toNat ∧ ctl.toNat ≤ 116 := by
  constructor
  · rintro ⟨c, rfl⟩
    exact controllerOf_bounds map c
  · rintro ⟨hlo, hhi⟩
    obtain ⟨c, hc⟩ := hmap.bijective_mapEntry.surjective (BitVec.ofNat 4 (ctl.toNat - 101))
    exact ⟨c, BitVec.eq_of_toNat_eq ((toNat_controllerOf_eq_iff map c hlo hhi).mpr hc)⟩

/-- What the encoder renders through a permutation. -/
theorem renderCc_of_mapOk {map : Vector Chan 16} (hmap : MapOk map) (ctl v : BitVec 7) :
    renderCc map ctl v =
      if 101 ≤ ctl.toNat ∧ ctl.toNat ≤ 116 then some [0xB0#8, dataByte ctl, dataByte v] else none := by
  rw [renderCc]
  cases hch : channelOf map ctl with
  | none =>
    have hout : ¬(101 ≤ ctl.toNat ∧ ctl.toNat ≤ 116) := by
      rw [← exists_controllerOf_iff hmap, not_exists]
      exact channelOf_eq_none_iff.mp hch
    rw [if_neg hout, Option.map_none]
  | some c =>
    have hc := controllerOf_of_channelOf_eq_some hch
    rw [if_pos ((exists_controllerOf_iff hmap ctl).mp ⟨c, hc⟩), Option.map_some, encodeCc_eq, hc]

/-- The packet around what is rendered, header first (42_sender_cdc.md R98). -/
theorem renderPkt_of_mapOk {map : Vector Chan 16} (hmap : MapOk map) (ctl v : BitVec 7) :
    renderPkt map ctl v =
      if 101 ≤ ctl.toNat ∧ ctl.toNat ≤ 116 then some [0x0B#8, 0xB0#8, dataByte ctl, dataByte v] else none := by
  rw [renderPkt, renderCc_of_mapOk hmap]
  split
  · rw [Option.bind_some, frame_three, usbHeader_eq]
    rfl
  · rfl

/-! SERIAL on a message of any length. -/

/-- SERIAL writes a byte of the message where there is one. -/
theorem msgByte_of_getElem? {m : List Byte} {i : Nat} {b : Byte} (h : m[i]? = some b) : msgByte m i = b := by
  rw [msgByte, h, Option.getD_some]

end Sys2Proof.Machine

open Sys2Proof Sys2Proof.Machine

/-- Settles O23: the row leaves in `fmtOut` what the encoder renders, and a permutation has a channel for each of
the sixteen numbers and for no other. -/
theorem ccMsgRowRendersEmittedMessages : Obligations.CcMsgRowRendersEmittedMessages := by
  unfold Obligations.CcMsgRowRendersEmittedMessages
  intro s c v hmap
  rw [exec, execCcMsg, renderCc_of_mapOk hmap]
  rfl

/-- Settles O24: the row leaves in `fmtOut` the framed form of what the encoder renders. -/
theorem usbPktRowRendersFramedMessages : Obligations.UsbPktRowRendersFramedMessages := by
  unfold Obligations.UsbPktRowRendersFramedMessages
  intro s c v hmap
  rw [exec, execUsbMidiCcPkt, renderPkt_of_mapOk hmap]
  rfl

/-- Settles O25: each row is a packet, and every packet is discarded. -/
theorem inboundRowsChangeNothing : Obligations.InboundRowsChangeNothing := by
  unfold Obligations.InboundRowsChangeNothing
  intro s k i j a b c
  refine ⟨?_, ?_, ?_⟩
  · rw [exec, execUsbInSysex, discardInbound_eq]
  · rw [exec, execUsbInRegularLo, discardInbound_eq]
  · rw [exec, execUsbInRegularHi, discardInbound_eq]

/-- Settles O15: the three bytes are those of `msgByte`, which is free only where the message has no byte. -/
theorem serialCompletesOnAnyMessage : Obligations.SerialCompletesOnAnyMessage := by
  unfold Obligations.SerialCompletesOnAnyMessage
  intro s hmode hphase
  refine ⟨msgByte s.pMsg 0, msgByte s.pMsg 1, msgByte s.pMsg 2, ?_, fun _ => msgByte_of_getElem?,
    fun _ => msgByte_of_getElem?, fun _ => msgByte_of_getElem?⟩
  rw [exec_serial_of_enabled hmode hphase, serialMessage_any]
  rfl

/-- Settles O33: such a read cannot stand at the port, which POLL tests before anything else. -/
theorem pollRefusesOtherReads : Obligations.PollRefusesOtherReads := by
  unfold Obligations.PollRefusesOtherReads
  intro s activity rx h
  have hread : ¬presentableRead activity rx = true := by
    rw [presentableRead_iff]
    rintro ⟨hlen, hidle⟩
    rcases h with hlong | ⟨hact, hne⟩
    · omega
    · exact hne (hidle hact)
  rw [exec, execPoll, if_neg hread]

end

section
/-! One turn of the producer and the whole scan (30_encoding.md R72, 40_scan_debounce.md R73, R77, 42_sender_cdc.md
R95).  A turn is a SAMPLE and, where it emits, SERIAL and PUSH; a scan is sixteen turns, each of which decides by a
knob that the turns before it have left alone; and a trace in the script runs as the instructions its lines decode
to.  With no script, a step is the operation the free schedule chooses (assumption log 4). -/

namespace Sys2Proof.Machine

/-! One turn. -/

/-- The operations of one turn at channel `c`, whose knob is that of `s`. -/
def turnOps (s : State) (c : Chan) (raw : BitVec Config.adcBits) (now : Time) (ok : Bool) : List Instr :=
  if emitsAt s c (downscale raw) now then [.sample raw now, .serial, .push ok] else [.sample raw now]

/-- From `s` to `t` one channel has had its turn and holds the sample `v`. -/
structure TurnDone (s : State) (v : Sample) (t : State) : Prop where
  scanCh : t.scanCh = s.scanCh + 1
  phase : t.pPhase = .sample
  mode : t.mode = .run
  sampled : (t.knob s.scanCh).value = v
  others : ∀ c, c ≠ s.scanCh → t.knob c = s.knob c

/-- With or without a transition the knob holds the sample afterwards. -/
theorem knob_sampleStep_value (v : Sample) (now : Time) (s : State) :
    ((sampleStep v now s).knob s.scanCh).value = v := by
  by_cases h : v = (s.knob s.scanCh).value
  · rw [sampleStep_of_eq_value now h, knob_congr (finishChannel_knobs _), knob_muxSelect, ← h]
  · rw [knob_sampleStep_of_ne_value now h]

/-- A message of three bytes is sent on both transports and the channel is finished, whatever the push reports. -/
theorem runOps_serial_push {s : State} (hmode : s.mode = .run) (hphase : s.pPhase = .serial)
    (hlen : s.pMsg.length = 3) (ok : Bool) :
    ∃ t, runOps [.serial, .push ok] s = .next t ∧ t.scanCh = s.scanCh + 1 ∧ t.pPhase = .sample ∧ t.mode = .run ∧
      t.knobs = s.knobs ∧ t.serOut = s.serOut ++ s.pMsg := by
  have hwritten : ((serialMessage s.pMsg s).setPhase .push).mode = .run := by
    rw [setPhase_mode, serialMessage_mode, hmode]
  have hlen' : ((serialMessage s.pMsg s).setPhase .push).pMsg.length = 3 := by
    rw [setPhase_pMsg, serialMessage_pMsg, hlen]
  obtain ⟨hknobs, _, hch, hnext, _, hout, hrun⟩ := sameProducer_pushStep_of_length hlen' Config.usbTxDepth ok
  refine ⟨_, ?_, ?_, hnext, hrun.trans hwritten, ?_, ?_⟩
  · rw [runOps_cons_of_next (exec_serial_of_enabled hmode hphase)]
    exact runOps_singleton_of_next (exec_push_of_enabled ok hwritten (setPhase_pPhase _ _))
  · rw [hch, finishChannel_scanCh, setPhase_scanCh, serialMessage_scanCh]
  · rw [hknobs, finishChannel_knobs, setPhase_knobs, serialMessage_knobs]
  · rw [hout, finishChannel_serOut, setPhase_serOut, serialMessage_serOut hlen]

section
variable {s : State} {raw : BitVec Config.adcBits} {now : Time}

/-- A SAMPLE that does not emit is the whole turn. -/
theorem runOps_turnOps_of_not_emits (ok : Bool) (hmode : s.mode = .run) (hphase : s.pPhase = .sample)
    (hemit : emitsAt s s.scanCh (downscale raw) now = false) :
    ∃ t, runOps (turnOps s s.scanCh raw now ok) s = .next t ∧ TurnDone s (downscale raw) t ∧
      t.serOut = s.serOut ++ emittedBy (.sample raw now) s := by
  have hnot : ¬emitsAt s s.scanCh (downscale raw) now = true := Bool.eq_false_iff.mp hemit
  refine ⟨sampleStep (downscale raw) now s, ?run, ⟨?ch, ?phase, ?mode, ?sampled, ?others⟩, ?out⟩
  case run =>
    rw [turnOps, if_neg hnot]
    exact runOps_singleton_of_next (exec_sample_of_enabled raw now hmode hphase)
  case ch => rw [sampleStep_scanCh, if_neg hnot]
  case phase => rw [sampleStep_pPhase, if_neg hnot]
  case mode => rw [sampleStep_mode, hmode]
  case sampled => exact knob_sampleStep_value _ now s
  case others => exact fun c hc => knob_sampleStep_other _ now s hc
  case out => rw [sampleStep_serOut, (emittedBy_sample_eq_nil raw now s).mpr hemit, List.append_nil]

/-- A SAMPLE that emits holds its message, which SERIAL and PUSH send before the turn ends. -/
theorem runOps_turnOps_of_emits (ok : Bool) (hmode : s.mode = .run) (hphase : s.pPhase = .sample)
    (hemit : emitsAt s s.scanCh (downscale raw) now = true) :
    ∃ t, runOps (turnOps s s.scanCh raw now ok) s = .next t ∧ TurnDone s (downscale raw) t ∧
      t.serOut = s.serOut ++ emittedBy (.sample raw now) s := by
  have hmsg : (sampleStep (downscale raw) now s).pMsg = emittedBy (.sample raw now) s := by
    rw [sampleStep_pMsg, if_pos hemit, emittedBy, if_pos hemit]
  have hlen : (sampleStep (downscale raw) now s).pMsg.length = 3 := by
    rw [sampleStep_pMsg, if_pos hemit, encodeCc_eq]
    rfl
  have hserial : (sampleStep (downscale raw) now s).pPhase = .serial := by
    rw [sampleStep_pPhase, if_pos hemit]
  obtain ⟨t, hsend, hch, hnext, hrun, hknobs, hout⟩ :=
    runOps_serial_push ((sampleStep_mode _ now s).trans hmode) hserial hlen ok
  refine ⟨t, ?run, ⟨?ch, hnext, hrun, ?sampled, fun c hc => ?others⟩, ?out⟩
  case run =>
    rw [turnOps, if_pos hemit, runOps_cons_of_next (exec_sample_of_enabled raw now hmode hphase), hsend]
  case ch => rw [hch, sampleStep_scanCh, if_pos hemit]
  case sampled => rw [knob_congr hknobs, knob_sampleStep_value]
  case others => rw [knob_congr hknobs, knob_sampleStep_other _ now s hc]
  case out => rw [hout, sampleStep_serOut, hmsg]

end

theorem runOps_turnOps {s : State} (raw : BitVec Config.adcBits) (now : Time) (ok : Bool) (hmode : s.mode = .run)
    (hphase : s.pPhase = .sample) :
    ∃ t, runOps (turnOps s s.scanCh raw now ok) s = .next t ∧ TurnDone s (downscale raw) t ∧
      t.serOut = s.serOut ++ emittedBy (.sample raw now) s := by
  cases hemit : emitsAt s s.scanCh (downscale raw) now with
  | false => exact runOps_turnOps_of_not_emits ok hmode hphase hemit
  | true => exact runOps_turnOps_of_emits ok hmode hphase hemit

/-! The first `j` turns of a scan. -/

/-- The operations of a SCAN's turn at channel `c` (30_encoding.md R72). -/
def scanTurnOps (s : State) (vals : Vector Sample 16) (now : Time) (c : Chan) : List Instr :=
  turnOps s c (rawOfSample vals[c.toNat]) now true

/-- From `s` to `t` the channels before the `j`-th have had their turn and hold their samples. -/
structure ScannedTo (s : State) (vals : Vector Sample 16) (j : Nat) (t : State) : Prop where
  scanCh : t.scanCh = BitVec.ofNat 4 j
  phase : t.pPhase = .sample
  mode : t.mode = .run
  sampled : ∀ c : Chan, c.toNat < j → (t.knob c).value = vals[c.toNat]
  others : ∀ c : Chan, j ≤ c.toNat → t.knob c = s.knob c

/-- A turn at the `j`-th channel is one turn more of the scan. -/
theorem ScannedTo.succ {s u t : State} {vals : Vector Sample 16} {j : Nat} (hj : j < 16)
    (hu : ScannedTo s vals j u) (ht : TurnDone u vals[u.scanCh.toNat] t) : ScannedTo s vals (j + 1) t := by
  have hnum : u.scanCh.toNat = j := by
    rw [hu.scanCh, BitVec.toNat_ofNat, Nat.mod_eq_of_lt hj]
  have hne : ∀ c : Chan, c.toNat ≠ j → c ≠ u.scanCh := by
    rintro c hc rfl
    exact hc hnum
  refine ⟨?scanCh, ht.phase, ht.mode, fun c hc => ?sampled, fun c hc => ?others⟩
  case scanCh =>
    rw [ht.scanCh, hu.scanCh, BitVec.ofNat_add]
    rfl
  case sampled =>
    by_cases heq : c.toNat = j
    · obtain rfl : c = u.scanCh := BitVec.eq_of_toNat_eq (heq.trans hnum.symm)
      exact ht.sampled
    · rw [ht.others c (hne c heq)]
      exact hu.sampled c (by omega)
  case others =>
    rw [ht.others c (hne c (by omega))]
    exact hu.others c (by omega)

theorem runOps_scan {s : State} (vals : Vector Sample 16) (now : Time) (hmode : s.mode = .run)
    (hphase : s.pPhase = .sample) (hch : s.scanCh = 0) {j : Nat} (hj : j ≤ 16) :
    ∃ t, runOps (((List.range j).map (BitVec.ofNat 4)).flatMap (scanTurnOps s vals now)) s = .next t ∧
      ScannedTo s vals j t := by
  induction j with
  | zero => exact ⟨s, rfl, hch, hphase, hmode, fun c hc => absurd hc (Nat.not_lt_zero _), fun _ _ => rfl⟩
  | succ j ih =>
    obtain ⟨u, hrun, hu⟩ := ih (by omega)
    obtain ⟨t, hturn, hdone, _⟩ := runOps_turnOps (rawOfSample vals[u.scanCh.toNat]) now true hu.mode hu.phase
    rw [downscale_rawOfSample] at hdone
    have hknob : s.knob u.scanCh = u.knob u.scanCh := by
      refine (hu.others _ ?_).symm
      rw [hu.scanCh, BitVec.toNat_ofNat, Nat.mod_eq_of_lt (by omega)]
    have hsame : scanTurnOps s vals now u.scanCh =
        turnOps u u.scanCh (rawOfSample vals[u.scanCh.toNat]) now true := by
      rw [scanTurnOps, turnOps, turnOps, emitsAt_congr hknob]
    refine ⟨t, ?_, hu.succ (by omega) hdone⟩
    rw [List.range_succ, List.map_append, List.flatMap_append, runOps_append_of_next hrun, List.map_singleton,
      List.flatMap_singleton, ← hu.scanCh, hsame, hturn]

/-! A trace in the script. -/

/-- A run of any machine behind the host's interface begins with a step. -/
theorem hostRun_succ {M : Host.Core} {s u : M.State} (k : Nat) (h : M.step s = .next u) :
    M.run (k + 1) s = M.run k u := by
  rw [Host.Core.run, h]

theorem core_run_succ {s u : State} (k : Nat) (h : step s = .next u) :
    Host.Core.run Sys2Proof.core (k + 1) s = Host.Core.run Sys2Proof.core k u :=
  hostRun_succ (M := Sys2Proof.core) (s := s) (u := u) k h

/-- Fetches that decode to instructions run as those instructions, one a step. -/
theorem run_script {is : List Instr} {fs rest : List Fetch} {s t : State} (hdecode : fs.map decode = is.map .ok)
    (h : runOps is s = .next t) :
    Host.Core.run Sys2Proof.core fs.length { s with script := fs ++ rest } = .next { t with script := rest } := by
  induction is generalizing fs s with
  | nil =>
    obtain rfl := List.map_eq_nil_iff.mp hdecode
    cases h
    rfl
  | cons i is ih =>
    obtain ⟨f, fs, rfl, hf, hfs⟩ := List.map_eq_cons_iff.mp hdecode
    obtain ⟨u, hu, hrun⟩ := runOps_cons_next h
    have hexec := exec_script (fs ++ rest) hu
    have hstep : step { s with script := f :: fs ++ rest } = .next { u with script := fs ++ rest } :=
      (step_script (s := { s with script := f :: fs ++ rest }) rfl hf).trans hexec
    exact (core_run_succ fs.length hstep).trans (ih hfs hrun)

/-- The lines of a SCAN's channel decode to the operations of its turn. -/
theorem decode_scanChannelLines (s : State) (vals : Vector Sample 16) (now : Time) (c : Chan) :
    ((scanChannelLines s vals now c).map Fetch.line).map decode = (scanTurnOps s vals now c).map .ok := by
  have hpush : decode (.line ⟨.push, [⟨.ok, bitLit true⟩]⟩) = .ok (.push true) := decode_encode_push true
  rw [scanChannelLines, scanTurnOps, turnOps, downscale_rawOfSample]
  split
  · simp only [emitSendLines, List.map_cons, List.map_nil, decode_sampleLine, hpush]
    rfl
  · simp only [List.map_cons, List.map_nil, decode_sampleLine]

theorem decode_scanLines (s : State) (vals : Vector Sample 16) (now : Time) :
    (((TraceItem.scan vals now).lines s).map Fetch.line).map decode =
      (allChannels.flatMap (scanTurnOps s vals now)).map .ok := by
  simp only [TraceItem.lines, List.map_flatMap, decode_scanChannelLines]

/-! The free schedule. -/

theorem isOperation_drawnInstr (n : Nat) : isOperation (drawnInstr n) = true := by
  unfold drawnInstr
  split <;> rfl

/-- The drawn read is cut to what the port carries, and is empty without activity (D29). -/
theorem presentableRead_drawRx (n : Nat) : presentableRead (Config.drawActivity n) (Config.drawRx n) = true := by
  rw [presentableRead_iff, Config.drawRx]
  constructor
  · split
    · exact List.length_take_le Config.usbRxMax _
    · exact Nat.zero_le _
  · intro hact
    rw [if_neg (by simp [hact])]

theorem wellFormed_drawnInstr (n : Nat) : wellFormed (drawnInstr n) = true := by
  cases hop : Config.drawOp n with
  | poll =>
    rw [drawnInstr, hop]
    exact presentableRead_drawRx n
  | _ =>
    rw [drawnInstr, hop]
    rfl

/-- The default of each mode is an operation that the mode enables. -/
theorem defaultInstr_enabled (s : State) :
    isOperation (defaultInstr s.mode) = true ∧ wellFormed (defaultInstr s.mode) = true ∧
      enabled (defaultInstr s.mode) s = true := by
  cases hmode : s.mode with
  | boot => exact ⟨rfl, rfl, (bootEnabled_iff s).mpr hmode⟩
  | run => exact ⟨rfl, rfl, (idleEnabled_iff s).mpr hmode⟩
  | halt => exact ⟨rfl, rfl, rfl⟩

theorem scheduled_enabled (s : State) :
    isOperation (scheduled s) = true ∧ wellFormed (scheduled s) = true ∧ enabled (scheduled s) s = true := by
  unfold scheduled
  split
  · next hon => exact ⟨isOperation_drawnInstr _, wellFormed_drawnInstr _, hon⟩
  · exact defaultInstr_enabled s

/-- No condition of R70's table looks at the count of the free schedule. -/
theorem enabled_withTick (i : Instr) (s : State) (n : Nat) : enabled i { s with tick := n } = enabled i s := by
  cases i <;> rfl

end Sys2Proof.Machine

open Sys2Proof Sys2Proof.Machine

/-- Settles O18: a SAMPLE that does not emit finishes the channel itself; one that does holds a message of three
bytes, which SERIAL writes and PUSH finishes the channel with. -/
theorem oneChannelTakesOneTurn : Obligations.OneChannelTakesOneTurn := by
  unfold Obligations.OneChannelTakesOneTurn
  intro s raw now ok hmode hphase
  obtain ⟨t, hrun, hdone, hout⟩ := runOps_turnOps raw now ok hmode hphase
  exact ⟨t, hrun, hdone.scanCh, hdone.phase, hdone.mode, hdone.sampled, hdone.others, hout⟩

/-- Settles O50: the lines decode to sixteen turns, which run from channel 0 to channel 0. -/
theorem scanSamplesEveryChannelInOrder : Obligations.ScanSamplesEveryChannelInOrder := by
  unfold Obligations.ScanSamplesEveryChannelInOrder
  intro s vals now hmode hphase hch hscript
  obtain ⟨t, hrun, ht⟩ := runOps_scan vals now hmode hphase hch (le_refl 16)
  have hscan := run_script (rest := s.script) (decode_scanLines s vals now) hrun
  rw [List.length_map] at hscan
  exact ⟨_, hscan, hscript, ht.mode, ht.phase, ht.scanCh, fun c => ht.sampled c c.isLt⟩

/-- Settles O40: the choice is enabled whether it is the drawn operation or the mode's default, and an enabled
operation completes. -/
theorem freeScheduleTakesAnEnabledOperation : Obligations.FreeScheduleTakesAnEnabledOperation := by
  unfold Obligations.FreeScheduleTakesAnEnabledOperation
  intro s hscript
  obtain ⟨hop, hwf, hon⟩ := scheduled_enabled s
  obtain ⟨t, ht⟩ := (exec_completes_iff_enabled { s with tick := s.tick + 1 } hop hwf).mpr
    ((enabled_withTick _ s _).trans hon)
  exact ⟨scheduled s, t, hop, hwf, hon, ht, (step_free hscript).trans ht⟩

/-- Settles O39: the script's head is decoded and taken off it; a table word is put there as its fetch. -/
theorem stepRunsTheDecodedInstruction : Obligations.StepRunsTheDecodedInstruction := by
  unfold Obligations.StepRunsTheDecodedInstruction
  refine ⟨fun s f rest i => step_script, fun s f rest e hs hf => ?undecodable, fun s => step_free,
    fun s nbits w i hw => ?word⟩
  case undecodable => rw [step, hs]; simp only [hf]
  case word =>
    have hf : decode (tableFetch nbits w) = .ok i := by
      unfold decodeTableWord at hw
      split at hw
      · next j hj => rw [hj, Option.some.inj hw]
      · cases hw
    exact step_script rfl hf

end
